-- ==== Sys2Proof/Word.lean ====
section
/-! DEFINITION. The machine's words: bytes, 16-bit words, the immediates of the encodings, register numbers,
and the fixed sizes of 00_scope.md R7. -/

namespace Sys2Proof

/-- An 8-bit quantity: a data register, a memory byte, a timer, the immediate NN (00_scope.md R7, R12). -/
abbrev Byte := BitVec 8

/-- A 16-bit quantity: an instruction word, PC, I, a return address (00_scope.md R8, 10_state.md R34, R38, R40). -/
abbrev Word := BitVec 16

/-- The 4-bit immediate N and the nibbles of a word (30_encoding.md R102). -/
abbrev Nibble := BitVec 4

/-- The 12-bit immediate NNN (30_encoding.md R102). -/
abbrev Addr := BitVec 12

/-- The number of a data register V0..VF, and of a key (10_state.md R30, R50). -/
abbrev Reg := Fin 16

/-- VF, the register that is also the flag (10_state.md R31). -/
abbrev vF : Reg := 15

/-- `MEM_SIZE` (00_scope.md R7). -/
abbrev memSize : Nat := 4096

/-- `PROG_BASE` (00_scope.md R7). -/
abbrev progBase : Nat := 0x200

/-- `MAX_PROG` (00_scope.md R7). -/
abbrev maxProg : Nat := 3584

/-- `FONT_BASE` (00_scope.md R7). -/
abbrev fontBase : Nat := 0x050

/-- `FONT_BYTES` (00_scope.md R7). -/
abbrev fontBytes : Nat := 80

/-- `STACK_DEPTH` (00_scope.md R7). -/
abbrev stackDepth : Nat := 16

/-- `FB_W` (00_scope.md R7). -/
abbrev fbWidth : Nat := 64

/-- `FB_H` (00_scope.md R7). -/
abbrev fbHeight : Nat := 32

end Sys2Proof
end

