-- ==== Sys2Proof/Syntax.lean ====
section
/-! DEFINITION. The 34 instructions of 30_encoding.md R104, one constructor per row of spec/opcode_table.json, in
the table's order. Operands are the fields of R102, already the things they name: `x`, `y` register numbers, `n`,
`nn`, `nnn` immediates. -/

namespace Sys2Proof

/-- An instruction. Each constructor's docstring gives its pattern and the rule of its meaning. -/
inductive Instr where
  /-- 00E0, 45_display.md R200. -/
  | cls
  /-- 00EE, 40_cycle_flow.md R135. -/
  | ret
  /-- 1NNN, 40_cycle_flow.md R136. -/
  | jpNnn (nnn : Addr)
  /-- 2NNN, 40_cycle_flow.md R137. -/
  | callNnn (nnn : Addr)
  /-- 3XNN, 41_skip.md R151. -/
  | seVxNn (x : Reg) (nn : Byte)
  /-- 4XNN, 41_skip.md R152. -/
  | sneVxNn (x : Reg) (nn : Byte)
  /-- 5XY0, 41_skip.md R153. -/
  | seVxVy (x y : Reg)
  /-- 6XNN, 42_load_alu.md R160. -/
  | ldVxNn (x : Reg) (nn : Byte)
  /-- 7XNN, 42_load_alu.md R161. -/
  | addVxNn (x : Reg) (nn : Byte)
  /-- 8XY0, 42_load_alu.md R162. -/
  | ldVxVy (x y : Reg)
  /-- 8XY1, 42_load_alu.md R163. -/
  | orVxVy (x y : Reg)
  /-- 8XY2, 42_load_alu.md R164. -/
  | andVxVy (x y : Reg)
  /-- 8XY3, 42_load_alu.md R165. -/
  | xorVxVy (x y : Reg)
  /-- 8XY4, 42_load_alu.md R166. -/
  | addVxVy (x y : Reg)
  /-- 8XY5, 42_load_alu.md R167. -/
  | subVxVy (x y : Reg)
  /-- 8XY6, 42_load_alu.md R169. -/
  | shrVxVy (x y : Reg)
  /-- 8XY7, 42_load_alu.md R168. -/
  | subnVxVy (x y : Reg)
  /-- 8XYE, 42_load_alu.md R171. -/
  | shlVxVy (x y : Reg)
  /-- 9XY0, 41_skip.md R154. -/
  | sneVxVy (x y : Reg)
  /-- ANNN, 43_index_memory.md R180. -/
  | ldINnn (nnn : Addr)
  /-- BNNN, 40_cycle_flow.md R138. -/
  | jpV0Nnn (nnn : Addr)
  /-- CXNN, 44_random.md R190. -/
  | rndVxNn (x : Reg) (nn : Byte)
  /-- DXYN, 45_display.md R201. -/
  | drwVxVyN (x y : Reg) (n : Nibble)
  /-- EX9E, 46_keypad.md R220. -/
  | skpVx (x : Reg)
  /-- EXA1, 46_keypad.md R221. -/
  | sknpVx (x : Reg)
  /-- FX07, 47_timers.md R230. -/
  | ldVxDt (x : Reg)
  /-- FX0A, 46_keypad.md R222, R223. -/
  | ldVxK (x : Reg)
  /-- FX15, 47_timers.md R231. -/
  | ldDtVx (x : Reg)
  /-- FX18, 47_timers.md R232. -/
  | ldStVx (x : Reg)
  /-- FX1E, 43_index_memory.md R181. -/
  | addIVx (x : Reg)
  /-- FX29, 43_index_memory.md R182. -/
  | ldFVx (x : Reg)
  /-- FX33, 43_index_memory.md R183. -/
  | ldBVx (x : Reg)
  /-- FX55, 43_index_memory.md R184. -/
  | ldMemVx (x : Reg)
  /-- FX65, 43_index_memory.md R185. -/
  | ldVxMem (x : Reg)
  deriving DecidableEq, Repr

end Sys2Proof
end

