-- ==== Sys2Proof/WellFormed.lean ====
section
/-! DEFINITION. Well-formedness: the operand ranges of 30_encoding.md R102 and the length of a program image
(70_reset_and_hazards.md R283, R297).

The operand types of `Instr` already keep every operand inside its field, so that no ill-formed instruction can be
built; the checks are still written on plain numbers, where they can fail, and `Instr.WellFormed` applies them. -/

namespace Sys2Proof

/-- X and Y name one of 16 registers (30_encoding.md R102). -/
def regOk (k : Nat) : Bool := decide (k < 16)

/-- N is a 4-bit number (30_encoding.md R102). -/
def nOk (k : Nat) : Bool := decide (k < 16)

/-- NN is an 8-bit number (30_encoding.md R102). -/
def nnOk (k : Nat) : Bool := decide (k < 256)

/-- NNN is a 12-bit number (30_encoding.md R102). -/
def nnnOk (k : Nat) : Bool := decide (k < 4096)

/-- The operand checks of one instruction, format by format (30_encoding.md R101, R102). -/
def Instr.wellFormed : Instr → Bool
  | .cls | .ret => true
  | .jpNnn a | .callNnn a | .ldINnn a | .jpV0Nnn a => nnnOk a.toNat
  | .seVxNn x k | .sneVxNn x k | .ldVxNn x k | .addVxNn x k | .rndVxNn x k => regOk x.val && nnOk k.toNat
  | .seVxVy x y | .sneVxVy x y | .ldVxVy x y | .orVxVy x y | .andVxVy x y | .xorVxVy x y
  | .addVxVy x y | .subVxVy x y | .shrVxVy x y | .subnVxVy x y | .shlVxVy x y => regOk x.val && regOk y.val
  | .drwVxVyN x y n => regOk x.val && regOk y.val && nOk n.toNat
  | .skpVx x | .sknpVx x | .ldVxDt x | .ldVxK x | .ldDtVx x | .ldStVx x | .addIVx x | .ldFVx x | .ldBVx x
  | .ldMemVx x | .ldVxMem x => regOk x.val

/-- `i` is well formed: every operand is in the range of its field. -/
abbrev Instr.WellFormed (i : Instr) : Prop := i.wellFormed = true

/-- A program image the loader accepts: 1 to 3584 bytes (70_reset_and_hazards.md R283). The bytes are opaque (R284). -/
def imageOk (image : List Byte) : Bool := decide (1 ≤ image.length) && decide (image.length ≤ maxProg)

end Sys2Proof
end

