-- ==== Sys2Proof/Decode.lean ====
section
/-! DEFINITION. The instruction encoding of 30_encoding.md: the fields of a word, the decoder of R103, the encoder
of the formats of R101, and the opcode map of R104 as data. -/

namespace Sys2Proof

/-- Why bytes are not an instruction. -/
inductive DecodeError where
  /-- Fewer than two bytes: an instruction is one 16-bit word (30_encoding.md R100). -/
  | truncated
  /-- The word matches no row of the opcode map; it carries the word (30_encoding.md R106). -/
  | unknownOpcode (op : Word)
  deriving DecidableEq, Repr

/-- `op[15:12]`, the nibble that selects the family (30_encoding.md R103). -/
def majorOf (op : Word) : Nibble := op.extractLsb 15 12

/-- `X = op[11:8]` (30_encoding.md R102). -/
def fieldX (op : Word) : Reg := ⟨(op.extractLsb 11 8).toNat, (op.extractLsb 11 8).isLt⟩

/-- `Y = op[7:4]` (30_encoding.md R102). -/
def fieldY (op : Word) : Reg := ⟨(op.extractLsb 7 4).toNat, (op.extractLsb 7 4).isLt⟩

/-- `N = op[3:0]`, also the minor opcode of format XY (30_encoding.md R101, R102). -/
def fieldN (op : Word) : Nibble := op.extractLsb 3 0

/-- `NN = op[7:0]`, also the minor opcode of format X (30_encoding.md R101, R102). -/
def fieldNN (op : Word) : Byte := op.extractLsb 7 0

/-- `NNN = op[11:0]` (30_encoding.md R102). -/
def fieldNNN (op : Word) : Addr := op.extractLsb 11 0

/-- The word is no instruction (30_encoding.md R106). -/
def unknown (op : Word) : Except DecodeError Instr := .error (.unknownOpcode op)

/-- Family 0x8, by its minor opcode `op[3:0]` (30_encoding.md R103). -/
def decodeAlu (op : Word) : Except DecodeError Instr :=
  match fieldN op with
  | 0x0#4 => .ok (.ldVxVy (fieldX op) (fieldY op))
  | 0x1#4 => .ok (.orVxVy (fieldX op) (fieldY op))
  | 0x2#4 => .ok (.andVxVy (fieldX op) (fieldY op))
  | 0x3#4 => .ok (.xorVxVy (fieldX op) (fieldY op))
  | 0x4#4 => .ok (.addVxVy (fieldX op) (fieldY op))
  | 0x5#4 => .ok (.subVxVy (fieldX op) (fieldY op))
  | 0x6#4 => .ok (.shrVxVy (fieldX op) (fieldY op))
  | 0x7#4 => .ok (.subnVxVy (fieldX op) (fieldY op))
  | 0xE#4 => .ok (.shlVxVy (fieldX op) (fieldY op))
  | _ => unknown op

/-- Family 0xE, by its minor opcode `op[7:0]` (30_encoding.md R103). -/
def decodeKey (op : Word) : Except DecodeError Instr :=
  match fieldNN op with
  | 0x9E#8 => .ok (.skpVx (fieldX op))
  | 0xA1#8 => .ok (.sknpVx (fieldX op))
  | _ => unknown op

/-- Family 0xF, by its minor opcode `op[7:0]` (30_encoding.md R103). -/
def decodeMisc (op : Word) : Except DecodeError Instr :=
  match fieldNN op with
  | 0x07#8 => .ok (.ldVxDt (fieldX op))
  | 0x0A#8 => .ok (.ldVxK (fieldX op))
  | 0x15#8 => .ok (.ldDtVx (fieldX op))
  | 0x18#8 => .ok (.ldStVx (fieldX op))
  | 0x1E#8 => .ok (.addIVx (fieldX op))
  | 0x29#8 => .ok (.ldFVx (fieldX op))
  | 0x33#8 => .ok (.ldBVx (fieldX op))
  | 0x55#8 => .ok (.ldMemVx (fieldX op))
  | 0x65#8 => .ok (.ldVxMem (fieldX op))
  | _ => unknown op

/-- The decision of 30_encoding.md R103 on one word. -/
def decodeWord (op : Word) : Except DecodeError Instr :=
  match majorOf op with
  | 0x0#4 => if op = 0x00E0#16 then .ok .cls else if op = 0x00EE#16 then .ok .ret else unknown op
  | 0x1#4 => .ok (.jpNnn (fieldNNN op))
  | 0x2#4 => .ok (.callNnn (fieldNNN op))
  | 0x3#4 => .ok (.seVxNn (fieldX op) (fieldNN op))
  | 0x4#4 => .ok (.sneVxNn (fieldX op) (fieldNN op))
  | 0x5#4 => if fieldN op = 0x0#4 then .ok (.seVxVy (fieldX op) (fieldY op)) else unknown op
  | 0x6#4 => .ok (.ldVxNn (fieldX op) (fieldNN op))
  | 0x7#4 => .ok (.addVxNn (fieldX op) (fieldNN op))
  | 0x8#4 => decodeAlu op
  | 0x9#4 => if fieldN op = 0x0#4 then .ok (.sneVxVy (fieldX op) (fieldY op)) else unknown op
  | 0xA#4 => .ok (.ldINnn (fieldNNN op))
  | 0xB#4 => .ok (.jpV0Nnn (fieldNNN op))
  | 0xC#4 => .ok (.rndVxNn (fieldX op) (fieldNN op))
  | 0xD#4 => .ok (.drwVxVyN (fieldX op) (fieldY op) (fieldN op))
  | 0xE#4 => decodeKey op
  | 0xF#4 => decodeMisc op
  | _ => unknown op

/-- The word of two consecutive bytes, the byte at the lower address high (20_memory.md R70). -/
def wordOfBytes (hi lo : Byte) : Word := hi ++ lo

/-- `op[15:8]`, the byte stored at the lower address (20_memory.md R70). -/
def highByte (op : Word) : Byte := op.extractLsb 15 8

/-- `op[7:0]`, the byte stored at the higher address (20_memory.md R70). -/
def lowByte (op : Word) : Byte := op.extractLsb 7 0

/-- The decoder on bytes: the instruction and the bytes after it. Total; it rejects by name. -/
def decode : List Byte → Except DecodeError (Instr × List Byte)
  | hi :: lo :: rest =>
    match decodeWord (wordOfBytes hi lo) with
    | .ok i => .ok (i, rest)
    | .error e => .error e
  | _ => .error .truncated

/-- The instruction the decoder reads from the table word `w` of `nbits` bits, laid out in memory order: the one
word of an instruction, high byte first (20_memory.md R70). -/
def decodeTableWord (nbits w : Nat) : Option Instr :=
  let op : Word := BitVec.ofNat 16 (w % 2 ^ nbits)
  match decode [highByte op, lowByte op] with
  | .ok (i, _) => some i
  | .error _ => none

/-- A register number as the nibble of a word. -/
def regNibble (x : Reg) : Nibble := BitVec.ofNat 4 x.val

/-- Format A: major, NNN (30_encoding.md R101). -/
def formatA (major : Nibble) (nnn : Addr) : Word := major ++ nnn

/-- Format XI: major, X, NN (30_encoding.md R101). -/
def formatXI (major : Nibble) (x : Reg) (nn : Byte) : Word := major ++ regNibble x ++ nn

/-- Formats XY and XYN: major, X, Y, and the minor opcode or N (30_encoding.md R101). -/
def formatXY (major : Nibble) (x y : Reg) (n : Nibble) : Word := major ++ regNibble x ++ regNibble y ++ n

/-- Format X: major, X, the 8-bit minor opcode (30_encoding.md R101). -/
def formatX (major : Nibble) (x : Reg) (minor : Byte) : Word := major ++ regNibble x ++ minor

/-- The word of an instruction, from the opcode map of 30_encoding.md R104. -/
def encode : Instr → Word
  | .cls => 0x00E0#16
  | .ret => 0x00EE#16
  | .jpNnn nnn => formatA 0x1 nnn
  | .callNnn nnn => formatA 0x2 nnn
  | .seVxNn x nn => formatXI 0x3 x nn
  | .sneVxNn x nn => formatXI 0x4 x nn
  | .seVxVy x y => formatXY 0x5 x y 0x0
  | .ldVxNn x nn => formatXI 0x6 x nn
  | .addVxNn x nn => formatXI 0x7 x nn
  | .ldVxVy x y => formatXY 0x8 x y 0x0
  | .orVxVy x y => formatXY 0x8 x y 0x1
  | .andVxVy x y => formatXY 0x8 x y 0x2
  | .xorVxVy x y => formatXY 0x8 x y 0x3
  | .addVxVy x y => formatXY 0x8 x y 0x4
  | .subVxVy x y => formatXY 0x8 x y 0x5
  | .shrVxVy x y => formatXY 0x8 x y 0x6
  | .subnVxVy x y => formatXY 0x8 x y 0x7
  | .shlVxVy x y => formatXY 0x8 x y 0xE
  | .sneVxVy x y => formatXY 0x9 x y 0x0
  | .ldINnn nnn => formatA 0xA nnn
  | .jpV0Nnn nnn => formatA 0xB nnn
  | .rndVxNn x nn => formatXI 0xC x nn
  | .drwVxVyN x y n => formatXY 0xD x y n
  | .skpVx x => formatX 0xE x 0x9E
  | .sknpVx x => formatX 0xE x 0xA1
  | .ldVxDt x => formatX 0xF x 0x07
  | .ldVxK x => formatX 0xF x 0x0A
  | .ldDtVx x => formatX 0xF x 0x15
  | .ldStVx x => formatX 0xF x 0x18
  | .addIVx x => formatX 0xF x 0x1E
  | .ldFVx x => formatX 0xF x 0x29
  | .ldBVx x => formatX 0xF x 0x33
  | .ldMemVx x => formatX 0xF x 0x55
  | .ldVxMem x => formatX 0xF x 0x65

/-- The bytes of an instruction in memory order (20_memory.md R70). -/
def encodeBytes (i : Instr) : List Byte := [highByte (encode i), lowByte (encode i)]

/-- The pair (mask, match) of an instruction's row in the opcode map (30_encoding.md R104). -/
def Instr.row : Instr → Word × Word
  | .cls => (0xFFFF, 0x00E0)
  | .ret => (0xFFFF, 0x00EE)
  | .jpNnn _ => (0xF000, 0x1000)
  | .callNnn _ => (0xF000, 0x2000)
  | .seVxNn _ _ => (0xF000, 0x3000)
  | .sneVxNn _ _ => (0xF000, 0x4000)
  | .seVxVy _ _ => (0xF00F, 0x5000)
  | .ldVxNn _ _ => (0xF000, 0x6000)
  | .addVxNn _ _ => (0xF000, 0x7000)
  | .ldVxVy _ _ => (0xF00F, 0x8000)
  | .orVxVy _ _ => (0xF00F, 0x8001)
  | .andVxVy _ _ => (0xF00F, 0x8002)
  | .xorVxVy _ _ => (0xF00F, 0x8003)
  | .addVxVy _ _ => (0xF00F, 0x8004)
  | .subVxVy _ _ => (0xF00F, 0x8005)
  | .shrVxVy _ _ => (0xF00F, 0x8006)
  | .subnVxVy _ _ => (0xF00F, 0x8007)
  | .shlVxVy _ _ => (0xF00F, 0x800E)
  | .sneVxVy _ _ => (0xF00F, 0x9000)
  | .ldINnn _ => (0xF000, 0xA000)
  | .jpV0Nnn _ => (0xF000, 0xB000)
  | .rndVxNn _ _ => (0xF000, 0xC000)
  | .drwVxVyN _ _ _ => (0xF000, 0xD000)
  | .skpVx _ => (0xF0FF, 0xE09E)
  | .sknpVx _ => (0xF0FF, 0xE0A1)
  | .ldVxDt _ => (0xF0FF, 0xF007)
  | .ldVxK _ => (0xF0FF, 0xF00A)
  | .ldDtVx _ => (0xF0FF, 0xF015)
  | .ldStVx _ => (0xF0FF, 0xF018)
  | .addIVx _ => (0xF0FF, 0xF01E)
  | .ldFVx _ => (0xF0FF, 0xF029)
  | .ldBVx _ => (0xF0FF, 0xF033)
  | .ldMemVx _ => (0xF0FF, 0xF055)
  | .ldVxMem _ => (0xF0FF, 0xF065)

end Sys2Proof
end

