-- ==== Sys2Proof/Config.lean ====
section
/-! DEFINITION. What is fixed at construction (the quirk profile, the font and the random source, 00_scope.md R6, R9,
R10, R11; 70_reset_and_hazards.md R280, R285) and the one value the spec leaves free (the bytes of a source that no
one has written out, 44_random.md R191). -/

namespace Sys2Proof

/-- `Q_SPRITE` (00_scope.md R9; its meaning, 45_display.md R203). -/
inductive SpriteEdge where
  | clip
  | wrap
  deriving DecidableEq, Repr

/-- `Q_SHIFT_SRC` (00_scope.md R9; its meaning, 42_load_alu.md R170). -/
inductive ShiftSource where
  | vx
  | vy
  deriving DecidableEq, Repr

/-- `Q_INDEX_OVF` (00_scope.md R9; its meaning, 43_index_memory.md R181). -/
inductive IndexOverflow where
  | off
  | on
  deriving DecidableEq, Repr

/-- The random source of a run, a parameter of it (00_scope.md R6, R11; 44_random.md R191; log 5): the bytes of
`supplied` in order, and after them the bytes of the source named by `seed`, about which nothing is known. -/
structure RandomSource where
  supplied : List Byte
  seed     : Nat
  deriving DecidableEq, Repr

/-- What construction fixes (70_reset_and_hazards.md R280, R285): the quirk profile of 00_scope.md R9, the font table of
R10 and the random source of R11. -/
structure Config where
  spriteEdge    : SpriteEdge
  shiftSource   : ShiftSource
  indexOverflow : IndexOverflow
  font          : Vector Byte fontBytes
  random        : RandomSource
  deriving DecidableEq, Repr

/-- Digits 0 to 7 of the default `FONT` (10_state.md R47). PRESUMED: log 7. -/
def Config.defaultFontLow : Vector Byte 40 :=
  #v[0xF0, 0x90, 0x90, 0x90, 0xF0,
     0x20, 0x60, 0x20, 0x20, 0x70,
     0xF0, 0x10, 0xF0, 0x80, 0xF0,
     0xF0, 0x10, 0xF0, 0x10, 0xF0,
     0x90, 0x90, 0xF0, 0x10, 0x10,
     0xF0, 0x80, 0xF0, 0x10, 0xF0,
     0xF0, 0x80, 0xF0, 0x90, 0xF0,
     0xF0, 0x10, 0x20, 0x40, 0x40]

/-- Digits 8 to F of the default `FONT` (10_state.md R47). PRESUMED: log 7. -/
def Config.defaultFontHigh : Vector Byte 40 :=
  #v[0xF0, 0x90, 0xF0, 0x90, 0xF0,
     0xF0, 0x90, 0xF0, 0x10, 0xF0,
     0xF0, 0x90, 0xF0, 0x90, 0x90,
     0xE0, 0x90, 0xE0, 0x90, 0xE0,
     0xF0, 0x80, 0x80, 0x80, 0xF0,
     0xE0, 0x90, 0x90, 0x90, 0xE0,
     0xF0, 0x80, 0xF0, 0x80, 0xF0,
     0xF0, 0x80, 0xF0, 0x80, 0x80]

/-- The default `FONT`, 16 glyphs of 5 bytes in digit order (00_scope.md R10, 10_state.md R47). PRESUMED: log 7. -/
def Config.defaultFont : Vector Byte fontBytes :=
  Config.defaultFontLow ++ Config.defaultFontHigh

/-- The default profile, "the normative machine" (00_scope.md R9), with the default font and a source of which no byte
is written out (log 5). -/
def Config.default : Config where
  spriteEdge    := .clip
  shiftSource   := .vx
  indexOverflow := .off
  font          := Config.defaultFont
  random        := { supplied := [], seed := 0 }

/-- The free value of 00_scope.md R11 and 44_random.md R191: the `n`-th byte that the source named `seed` answers where
no byte is supplied. Nothing constrains it (log 5). -/
opaque Config.randomByte (seed n : Nat) : Byte

end Sys2Proof
end

