-- ==== Sys2Proof/Machine/State.lean ====
section
/-! DEFINITION. The state of the machine as plain data (10_state.md), the reasons a step can stop, and reset. -/

namespace Sys2Proof.Machine

/-- The five execution-time fault kinds (60_exceptions.md R240). Their numeric codes are `FaultKind.code`. -/
inductive FaultKind where
  /-- The fetched word matches no row of the opcode map (60_exceptions.md R241). -/
  | unknownOpcodeError
  /-- 2NNN with SP = 16 (60_exceptions.md R242). -/
  | stackOverflowError
  /-- 00EE with SP = 0 (60_exceptions.md R242). -/
  | stackUnderflowError
  /-- A fetch or data access at an address from 4096 on (60_exceptions.md R243). -/
  | memoryBoundsFault
  /-- FX33 or FX55 would write below 0x200 (60_exceptions.md R244). -/
  | writeProtectFault
  deriving DecidableEq, Repr

/-- A fault record `(kind, opcode, pc, depth)` (60_exceptions.md R245). -/
structure FaultRecord where
  kind   : FaultKind
  opcode : Word
  pc     : Word
  depth  : Byte
  deriving DecidableEq, Repr

/-- The pending-instruction field `WAIT` (10_state.md R43). -/
inductive Wait where
  | none
  | awaitingKey (x : Reg)
  deriving DecidableEq, Repr

/-- An event of a run once the loader has finished (60_exceptions.md R252). The key index is 0..15 by its type (R260). -/
inductive Event where
  /-- The core's `step()` (40_cycle_flow.md R130). -/
  | step
  /-- One tick of the 60 Hz source (47_timers.md R233). -/
  | tick
  /-- The host's `set_key(k, pressed)` (10_state.md R50). -/
  | setKey (k : Reg) (pressed : Bool)
  deriving DecidableEq, Repr

/-- Main memory as the cells that differ from their reset contents, addresses strictly rising
(`Memory.wf` in Machine/Ops.lean; log 8). -/
abbrev Memory := List Host.Cell

/-- The framebuffer, `fb[y]` being row y and bit x of it column x, 1 = on (10_state.md R48; log 10). -/
abbrev Framebuffer := Vector (BitVec 64) fbHeight

/-- Why a step stops the run. The five faults of 60_exceptions.md R240 are NOT here: the spec says what state they
leave, so they are next states with `fault` latched (log 1). -/
inductive Fault where
  /-- Raised by 2NNN and 00EE in a state with SP > 16, to which the spec gives no meaning since SP never exceeds 16
  (10_state.md R39). SAFE: no run from reset reaches such a state (log 9). -/
  | stackPointerBeyondStack
  deriving DecidableEq, Repr

/-- Why an instruction has no meaning. -/
inductive Refusal where
  /-- Raised by an arm of `exec` whose instruction has no meaning yet; no arm is such. SAFE: the run stops. -/
  | notModelled (mnemonic : String)
  deriving DecidableEq, Repr

/-- The state: every piece of state of 10_state.md, and two fields of the model's own (`draws`, `inputs`). -/
structure State where
  /-- The quirk profile, the font and the random source, fixed at construction (00_scope.md R6, R9, R10, R11;
  10_state.md R45; logs 5, 6). -/
  config : Config
  /-- `V[0..15]`; `V[15]` is VF (10_state.md R30, R31). -/
  v      : Vector Byte 16
  /-- The index register `I` (10_state.md R38). -/
  i      : Word
  /-- The program counter `PC` (10_state.md R34). -/
  pc     : Word
  /-- The stack pointer `SP`, the number of live entries of `stk` (10_state.md R39). -/
  sp     : Byte
  /-- The call stack `STK[0..15]` (10_state.md R40). -/
  stk    : Vector Word stackDepth
  /-- The delay timer `DT` (10_state.md R41). -/
  dt     : Byte
  /-- The sound timer `ST` (10_state.md R42). -/
  st     : Byte
  /-- The pending instruction `WAIT` (10_state.md R43). -/
  wait   : Wait
  /-- The fault latch `FAULT` (10_state.md R44). -/
  fault  : Option FaultRecord
  /-- Main memory `MEM` (10_state.md R46). -/
  mem    : Memory
  /-- The framebuffer `FB` (10_state.md R48). -/
  fb     : Framebuffer
  /-- The input map `KEY`, bit k for key k, 1 = pressed (10_state.md R50). -/
  key    : BitVec 16
  /-- The key-wait latch `KLATCH` (10_state.md R52). -/
  klatch : BitVec 16
  /-- The model's own: how many bytes of `config.random` have been consumed (44_random.md R190; log 5). -/
  draws  : Nat
  /-- The model's own: the events to come before the core steps on its own (60_exceptions.md R252; log 4). -/
  inputs : List Event
  deriving DecidableEq, Repr

/-- Construction with a given profile, font and random source: the table of 10_state.md R54 (70_reset_and_hazards.md R280, R281).
Memory lists nothing: every byte reads as its reset contents. -/
def State.construct (c : Config) : State where
  config := c
  v      := Vector.replicate 16 0
  i      := 0
  pc     := 0x200
  sp     := 0
  stk    := Vector.replicate stackDepth 0
  dt     := 0
  st     := 0
  wait   := .none
  fault  := none
  mem    := []
  fb     := Vector.replicate fbHeight 0
  key    := 0
  klatch := 0
  draws  := 0
  inputs := []

/-- The machine right after reset, in the default profile (00_scope.md R9, 10_state.md R54). -/
def State.reset : State := State.construct Config.default

end Sys2Proof.Machine
end

