-- ==== Sys2Proof/Machine/Ops.lean ====
section
/-! DEFINITION. The named operations over the state: registers, memory, the call stack, the framebuffer, the keys,
and taking a fault. The meanings of the instructions are built from these. -/

namespace Sys2Proof.Machine

/-! ### Writing one field -/

/-- `V[x] <- b`, a whole-byte write (10_state.md R30). -/
def State.setReg (s : State) (x : Reg) (b : Byte) : State := { s with v := s.v.set x.val b }

/-- All data registers at once, for FX65. -/
def State.setRegs (s : State) (v : Vector Byte 16) : State := { s with v := v }

/-- `I <- w`. -/
def State.setI (s : State) (w : Word) : State := { s with i := w }

/-- `PC <- w`, on 16 bits, never reduced to 12 (10_state.md R36). -/
def State.setPc (s : State) (w : Word) : State := { s with pc := w }

/-- `SP <- b`. -/
def State.setSp (s : State) (b : Byte) : State := { s with sp := b }

/-- `STK[k] <- w`. -/
def State.setSlot (s : State) (k : Fin stackDepth) (w : Word) : State := { s with stk := s.stk.set k.val w }

/-- `DT <- b`. -/
def State.setDt (s : State) (b : Byte) : State := { s with dt := b }

/-- `ST <- b`. -/
def State.setSt (s : State) (b : Byte) : State := { s with st := b }

/-- `WAIT <- w`. -/
def State.setWait (s : State) (w : Wait) : State := { s with wait := w }

/-- `FAULT <- f`. -/
def State.setFault (s : State) (f : Option FaultRecord) : State := { s with fault := f }

/-- `MEM <- m`. -/
def State.setMem (s : State) (m : Memory) : State := { s with mem := m }

/-- `FB <- f`. -/
def State.setFb (s : State) (f : Framebuffer) : State := { s with fb := f }

/-- `KEY <- k`, all 16 bits. -/
def State.setKeys (s : State) (k : BitVec 16) : State := { s with key := k }

/-- `KLATCH <- k`, all 16 bits. -/
def State.setKlatch (s : State) (k : BitVec 16) : State := { s with klatch := k }

/-- The count of consumed random bytes, the place reached in the source. -/
def State.setDraws (s : State) (n : Nat) : State := { s with draws := n }

/-- The events still to come. -/
def State.setInputs (s : State) (es : List Event) : State := { s with inputs := es }

/-! ### Reading registers, slots, keys and cells -/

/-- `V[x]` (10_state.md R30); VF is `s.reg vF` (R31). -/
def State.reg (s : State) (x : Reg) : Byte := s.v[x.val]

/-- `STK[k]` (10_state.md R40). -/
def State.slot (s : State) (k : Fin stackDepth) : Word := s.stk[k.val]

/-- `KEY[k]`, true for pressed (10_state.md R50). -/
def State.keyDown (s : State) (k : Reg) : Bool := s.key.getLsbD k.val

/-- `KLATCH[k]` (10_state.md R52). -/
def State.latched (s : State) (k : Reg) : Bool := s.klatch.getLsbD k.val

/-- `FB[y][x]` of a framebuffer, true for on; off outside the grid (10_state.md R48). -/
def cell (f : Framebuffer) (y x : Nat) : Bool := if h : y < fbHeight then f[y].getLsbD x else false

/-- `FB[y][x] <- FB[y][x] ^ 1` (45_display.md R201); nothing outside the grid. -/
def toggle (f : Framebuffer) (y x : Nat) : Framebuffer :=
  if h : y < fbHeight then f.set y (f[y] ^^^ BitVec.twoPow 64 x) else f

/-- Every cell off (45_display.md R200). -/
def blankFb : Framebuffer := Vector.replicate fbHeight 0

/-- The 16 key numbers in rising order (10_state.md R50). -/
def allKeys : List Reg := [0, 1, 2, 3, 4, 5, 6, 7, 8, 9, 10, 11, 12, 13, 14, 15]

/-! ### Memory -/

/-- What an address reads as when memory lists nothing for it: the reset contents, the font at 0x050..0x09F and
zero elsewhere (10_state.md R46, R47; log 8). -/
def resetByte (c : Config) (a : Nat) : Byte :=
  if h : fontBase ≤ a ∧ a < fontBase + fontBytes then c.font[a - fontBase] else 0

/-- The byte memory lists for an address, if any. -/
def Memory.find : Memory → Nat → Option Byte
  | [], _ => none
  | (b, w) :: rest, a => if b = a then some w else Memory.find rest a

/-- `MEM[a]` (20_memory.md R74), for an address inside the space. -/
def Memory.read (c : Config) (m : Memory) (a : Nat) : Byte := (m.find a).getD (resetByte c a)

/-- Lists a byte for an address, keeping the addresses rising. -/
def Memory.put : Memory → Nat → Byte → Memory
  | [], a, v => [(a, v)]
  | (b, w) :: rest, a, v =>
    if a < b then (a, v) :: (b, w) :: rest
    else if a = b then (a, v) :: rest
    else (b, w) :: Memory.put rest a v

/-- Lists nothing for an address. -/
def Memory.drop (m : Memory) (a : Nat) : Memory := m.filter (fun cell => cell.1 != a)

/-- `MEM[a] <- v` (20_memory.md R75), keeping the canonical form: a byte equal to its reset contents is not listed. -/
def Memory.write (c : Config) (m : Memory) (a : Nat) (v : Byte) : Memory :=
  if v = resetByte c a then m.drop a else m.put a v

/-- The canonical form: addresses strictly rising and inside the space, no byte equal to its reset contents (log 8). -/
abbrev Memory.wf (c : Config) (m : Memory) : Prop :=
  m.Pairwise (fun p q => p.1 < q.1) ∧ ∀ p ∈ m, p.1 < memSize ∧ p.2 ≠ resetByte c p.1

/-- The bytes `bs` at `a`, `a + 1`, … in ascending address order (20_memory.md R71). Unchecked: see `checkWrite`. -/
def storeBytes (c : Config) (m : Memory) (a : Nat) : List Byte → Memory
  | [] => m
  | b :: bs => storeBytes c (m.write c a b) (a + 1) bs

/-- The `n` bytes at `a`, `a + 1`, … in ascending address order (20_memory.md R71). Unchecked: see `checkRead`. -/
def loadBytes (c : Config) (m : Memory) (a : Nat) : Nat → List Byte
  | 0 => []
  | n + 1 => m.read c a :: loadBytes c m (a + 1) n

/-- `MEM[a]` of a state, the model's read of one byte. -/
def State.byte (s : State) (a : Nat) : Byte := s.mem.read s.config a

/-- `MemRead(a, 1)` (20_memory.md R74). -/
def State.memRead (s : State) (a : Nat) : Except FaultKind Byte :=
  if memSize ≤ a then .error .memoryBoundsFault else .ok (s.byte a)

/-- `MemWrite(a, 1, v)` (20_memory.md R75). -/
def State.memWrite (s : State) (a : Nat) (v : Byte) : Except FaultKind State :=
  if memSize ≤ a then .error .memoryBoundsFault
  else if a < progBase then .error .writeProtectFault
  else .ok (s.setMem (s.mem.write s.config a v))

/-- The check of a read of `n` bytes from `a`, all addresses at once (20_memory.md R76): the fault, if any. -/
def checkRead (a n : Nat) : Option FaultKind :=
  if n ≠ 0 ∧ memSize < a + n then some .memoryBoundsFault else none

/-- The check of a write of `n` bytes from `a`, all addresses at once, bounds before protection
(20_memory.md R76): the fault, if any. -/
def checkWrite (a n : Nat) : Option FaultKind :=
  if n ≠ 0 ∧ memSize < a + n then some .memoryBoundsFault
  else if n ≠ 0 ∧ a < progBase then some .writeProtectFault
  else none

/-- The registers from `k` on take the bytes `bs` in order (43_index_memory.md R185). -/
def regsFrom (v : Vector Byte 16) (k : Nat) : List Byte → Vector Byte 16
  | [] => v
  | b :: bs => regsFrom (v.setIfInBounds k b) (k + 1) bs

/-! ### Program counter, stack, faults -/

/-- `npc = ipc + 2`, the address after the instruction; `PC` holds `ipc` when a meaning begins (00_scope.md R15,
40_cycle_flow.md R132; log 3). -/
def State.npc (s : State) : Word := s.pc + 2

/-- The advance of 40_cycle_flow.md R132, kept by every instruction that does not write PC (10_state.md R35). -/
def State.advance (s : State) : State := s.setPc s.npc

/-- The numeric codes of 60_exceptions.md R240; 0 is no fault. -/
def FaultKind.code : FaultKind → Nat
  | .unknownOpcodeError => 1
  | .stackOverflowError => 2
  | .stackUnderflowError => 3
  | .memoryBoundsFault => 4
  | .writeProtectFault => 5

/-- TAKING A FAULT (60_exceptions.md R245, R246): `s` is the state at the start of the step, of which everything is
kept, and the latch takes the record. There is no way back but reset (R247), so no return stands beside it. -/
def raise (k : FaultKind) (op : Word) (s : State) : State :=
  s.setFault (some { kind := k, opcode := op, pc := s.pc, depth := s.sp })

/-- An instruction guarded by a check: the fault, or the effect (60_exceptions.md R246, R248). -/
def guarded (check : Option FaultKind) (op : Word) (s effect : State) : Host.Outcome State Fault Refusal :=
  match check with
  | some k => .next (raise k op s)
  | none => .next effect

/-- The fetch: two bytes at PC and PC + 1, high byte first, both checked (40_cycle_flow.md R131, 20_memory.md R70).
The second address is a natural number, which does not wrap (20_memory.md R88). -/
def State.fetch (s : State) : Except FaultKind Word :=
  match s.memRead s.pc.toNat, s.memRead (s.pc.toNat + 1) with
  | .ok hi, .ok lo => .ok (wordOfBytes hi lo)
  | .error k, _ => .error k
  | .ok _, .error k => .error k

end Sys2Proof.Machine
end

