-- ==== Sys2Proof/Machine/Operands.lean ====
section
/-! DEFINITION. The operand forms: the shift source, the low nibble of a register, effective addresses and jump
targets. A register by number is `State.reg`; an immediate is used as it stands (30_encoding.md R102). -/

namespace Sys2Proof.Machine

/-- The operand of a shift: VX, or VY under `Q_SHIFT_SRC = vy` (42_load_alu.md R170). -/
def State.shiftOperand (s : State) (x y : Reg) : Byte :=
  match s.config.shiftSource with
  | .vx => s.reg x
  | .vy => s.reg y

/-- `V[x] & 0x0F`: the hex digit of FX29 (43_index_memory.md R182) and the key of EX9E and EXA1
(46_keypad.md R220, R221). -/
def State.lowNibble (s : State) (x : Reg) : Reg := ⟨(s.reg x).toNat % 16, Nat.mod_lt _ (by decide)⟩

/-- The base of the one data addressing mode, as a natural number (43_index_memory.md R186, 20_memory.md R88). -/
def State.base (s : State) : Nat := s.i.toNat

/-- NNN zero-extended to 16 bits (40_cycle_flow.md R136). -/
def target (nnn : Addr) : Word := nnn.setWidth 16

/-- NNN + V[0] on 16 bits (40_cycle_flow.md R138). -/
def State.targetV0 (s : State) (nnn : Addr) : Word := target nnn + (s.reg 0).setWidth 16

/-- The address of the glyph of digit `d`: 0x050 + 5·d (43_index_memory.md R182, 10_state.md R47). -/
def glyphAddr (d : Reg) : Word := BitVec.ofNat 16 (fontBase + 5 * d.val)

/-- The three decimal digits of a byte, hundreds first (43_index_memory.md R183). -/
def decimalDigits (b : Byte) : List Byte :=
  [BitVec.ofNat 8 (b.toNat / 100), BitVec.ofNat 8 (b.toNat / 10 % 10), BitVec.ofNat 8 (b.toNat % 10)]

/-- `V[0] .. V[x]` (43_index_memory.md R184). -/
def State.regsUpTo (s : State) (x : Reg) : List Byte := s.v.toList.take (x.val + 1)

end Sys2Proof.Machine
end

