-- ==== Sys2Proof/Machine/Control.lean ====
section
/-! DEFINITION. Control transfer: 00EE, 1NNN, 2NNN, BNNN (40_cycle_flow.md R135 to R138). -/

namespace Sys2Proof.Machine

/-- 00EE, pop the return address into PC; underflow if SP = 0 (40_cycle_flow.md R135). The popped slot keeps its
value (10_state.md R40). With SP > 16 there is no slot to pop (log 9). -/
def execRet (s : State) : Host.Outcome State Fault Refusal :=
  if s.sp = 0 then .next (raise .stackUnderflowError (encode .ret) s)
  else if h : s.sp.toNat - 1 < stackDepth then
    .next ((s.setSp (s.sp - 1)).setPc (s.slot ⟨s.sp.toNat - 1, h⟩))
  else .fault .stackPointerBeyondStack

/-- 1NNN, PC <- NNN (40_cycle_flow.md R136). -/
def execJpNnn (nnn : Addr) (s : State) : Host.Outcome State Fault Refusal :=
  .next (s.setPc (target nnn))

/-- 2NNN, push `npc`, PC <- NNN; overflow if SP = 16 (40_cycle_flow.md R137). With SP > 16 there is no slot to write
(log 9). -/
def execCallNnn (nnn : Addr) (s : State) : Host.Outcome State Fault Refusal :=
  if s.sp = 16 then .next (raise .stackOverflowError (encode (.callNnn nnn)) s)
  else if h : s.sp.toNat < stackDepth then
    .next (((s.setSlot ⟨s.sp.toNat, h⟩ s.npc).setSp (s.sp + 1)).setPc (target nnn))
  else .fault .stackPointerBeyondStack

/-- BNNN, PC <- NNN + V[0] (40_cycle_flow.md R138). -/
def execJpV0Nnn (nnn : Addr) (s : State) : Host.Outcome State Fault Refusal :=
  .next (s.setPc (s.targetV0 nnn))

end Sys2Proof.Machine
end

