-- ==== Sys2Proof/Machine/Flags.lean ====
section
/-! DEFINITION. The flag computations. VF is the only flag; a flag write is a write of 0x00 or 0x01 to `V[15]`
(10_state.md R31, R32). -/

namespace Sys2Proof.Machine

/-- The byte of a flag (10_state.md R31). -/
def flagByte (b : Bool) : Byte := if b then 1 else 0

/-- The carry of 8XY4: the natural sum exceeds 255 (42_load_alu.md R166). -/
def carry (a b : Byte) : Bool := decide (255 < a.toNat + b.toNat)

/-- No borrow of 8XY5 and 8XY7: minuend ≥ subtrahend (42_load_alu.md R167, R168). -/
def noBorrow (minuend subtrahend : Byte) : Bool := decide (subtrahend.toNat ≤ minuend.toNat)

/-- The bit 8XY6 shifts out: bit 0 (42_load_alu.md R169). -/
def shiftedOutRight (b : Byte) : Bool := b.getLsbD 0

/-- The bit 8XYE shifts out: bit 7 (42_load_alu.md R171). -/
def shiftedOutLeft (b : Byte) : Bool := b.getLsbD 7

/-- The overflow of FX1E: the natural sum exceeds 0xFFF (43_index_memory.md R181). -/
def indexOverflow (i : Word) (b : Byte) : Bool := decide (0xFFF < i.toNat + b.toNat)

/-- The result to `V[x]`, then the flag to VF, last (10_state.md R33, 42_load_alu.md R173). -/
def State.setResultFlag (s : State) (x : Reg) (result : Byte) (flag : Bool) : State :=
  (s.setReg x result).setReg vF (flagByte flag)

end Sys2Proof.Machine
end

