-- ==== Sys2Proof/Machine/Display.lean ====
section
/-! DEFINITION. 00E0, DXYN and the XOR compositor (45_display.md). -/

namespace Sys2Proof.Machine

/-- 00E0, every cell off (45_display.md R200). -/
def execCls (s : State) : Host.Outcome State Fault Refusal :=
  .next (s.setFb blankFb).advance

/-- Where a sprite pixel at column `x`, row `y` lands: clipped or wrapped past the edges (45_display.md R203). -/
def landing (edge : SpriteEdge) (y x : Nat) : Option (Nat × Nat) :=
  match edge with
  | .clip => if y < fbHeight ∧ x < fbWidth then some (y, x) else none
  | .wrap => some (y % fbHeight, x % fbWidth)

/-- What drawing has done so far: the framebuffer, and whether a cell has gone from on to off (45_display.md R201). -/
structure Canvas where
  fb   : Framebuffer
  coll : Bool
  deriving DecidableEq, Repr

/-- One sprite bit XORed into the framebuffer; a 0 bit does nothing (45_display.md R201, R202). -/
def drawBit (edge : SpriteEdge) (y x : Nat) (bit : Bool) (d : Canvas) : Canvas :=
  match bit, landing edge y x with
  | true, some (y', x') => { fb := toggle d.fb y' x', coll := d.coll || cell d.fb y' x' }
  | _, _ => d

/-- One sprite row: 8 pixels from column `x0`, bit 7 leftmost (45_display.md R202). -/
def drawRow (edge : SpriteEdge) (y x0 : Nat) (b : Byte) (d : Canvas) : Canvas :=
  [0, 1, 2, 3, 4, 5, 6, 7].foldl (fun d c => drawBit edge y (x0 + c) (b.getLsbD (7 - c)) d) d

/-- The rows of a sprite on successive screen rows from `y` (45_display.md R201, R202). -/
def drawRows (edge : SpriteEdge) (y x0 : Nat) : List Byte → Canvas → Canvas
  | [], d => d
  | b :: bs, d => drawRows edge (y + 1) x0 bs (drawRow edge y x0 b d)

/-- The N sprite bytes at I (45_display.md R201, R204). -/
def State.spriteBytes (s : State) (n : Nibble) : List Byte := loadBytes s.config s.mem s.base n.toNat

/-- The drawing of DXYN: from column VX mod 64 and row VY mod 32, both read before VF is written
(45_display.md R201, R203, R206 d). -/
def State.drawn (s : State) (x y : Reg) (n : Nibble) : Canvas :=
  drawRows s.config.spriteEdge ((s.reg y).toNat % fbHeight) ((s.reg x).toNat % fbWidth) (s.spriteBytes n)
    { fb := s.fb, coll := false }

/-- DXYN (45_display.md R201): all N bytes are checked first, then drawn, then VF takes the collision flag. -/
def execDrwVxVyN (x y : Reg) (n : Nibble) (s : State) : Host.Outcome State Fault Refusal :=
  guarded (checkRead s.base n.toNat) (encode (.drwVxVyN x y n)) s
    ((s.setFb (s.drawn x y n).fb).setReg vF (flagByte (s.drawn x y n).coll)).advance

end Sys2Proof.Machine
end

