-- ==== Sys2Proof/Machine/IndexMemory.lean ====
section
/-! DEFINITION. The index register and memory transfer: ANNN, FX1E, FX29, FX33, FX55, FX65 (43_index_memory.md). -/

namespace Sys2Proof.Machine

/-- ANNN, I <- NNN (43_index_memory.md R180). -/
def execLdINnn (nnn : Addr) (s : State) : Host.Outcome State Fault Refusal :=
  .next (s.setI (target nnn)).advance

/-- The flag of FX1E: VF is written under `Q_INDEX_OVF = on` only (43_index_memory.md R181). -/
def State.setIndexFlag (s : State) (flag : Bool) : State :=
  match s.config.indexOverflow with
  | .off => s
  | .on => s.setReg vF (flagByte flag)

/-- FX1E, I <- (I + VX) mod 4096, and the overflow flag by the profile (43_index_memory.md R181). -/
def execAddIVx (x : Reg) (s : State) : Host.Outcome State Fault Refusal :=
  .next ((s.setI (BitVec.ofNat 16 ((s.i.toNat + (s.reg x).toNat) % memSize))).setIndexFlag
    (indexOverflow s.i (s.reg x))).advance

/-- FX29, I <- the glyph address of VX's low nibble (43_index_memory.md R182). -/
def execLdFVx (x : Reg) (s : State) : Host.Outcome State Fault Refusal :=
  .next (s.setI (glyphAddr (s.lowNibble x))).advance

/-- A store of `bytes` at I, all addresses checked first; I is unchanged (20_memory.md R76, 43_index_memory.md R186). -/
def storeAtI (op : Word) (bytes : List Byte) (s : State) : Host.Outcome State Fault Refusal :=
  guarded (checkWrite s.base bytes.length) op s
    (s.setMem (storeBytes s.config s.mem s.base bytes)).advance

/-- FX33, the decimal digits of VX at I, I+1, I+2 (43_index_memory.md R183). -/
def execLdBVx (x : Reg) (s : State) : Host.Outcome State Fault Refusal :=
  storeAtI (encode (.ldBVx x)) (decimalDigits (s.reg x)) s

/-- FX55, V0..VX at I..I+X (43_index_memory.md R184). -/
def execLdMemVx (x : Reg) (s : State) : Host.Outcome State Fault Refusal :=
  storeAtI (encode (.ldMemVx x)) (s.regsUpTo x) s

/-- FX65, V0..VX from I..I+X (43_index_memory.md R185). -/
def execLdVxMem (x : Reg) (s : State) : Host.Outcome State Fault Refusal :=
  guarded (checkRead s.base (x.val + 1)) (encode (.ldVxMem x)) s
    (s.setRegs (regsFrom s.v 0 (loadBytes s.config s.mem s.base (x.val + 1)))).advance

end Sys2Proof.Machine
end

