-- ==== Sys2Proof/Machine/Skip.lean ====
section
/-! DEFINITION. The skip of 41_skip.md R150, and 3XNN, 4XNN, 5XY0, 9XY0 (R151 to R154). -/

namespace Sys2Proof.Machine

/-- The skip: PC moves 2 further when the condition holds, whatever the skipped word is (41_skip.md R150). -/
def skipIf (cond : Bool) (s : State) : State := s.setPc (if cond then s.npc + 2 else s.npc)

/-- 3XNN, skip if VX = NN (41_skip.md R151). -/
def execSeVxNn (x : Reg) (nn : Byte) (s : State) : Host.Outcome State Fault Refusal :=
  .next (skipIf (s.reg x == nn) s)

/-- 4XNN, skip if VX ≠ NN (41_skip.md R152). -/
def execSneVxNn (x : Reg) (nn : Byte) (s : State) : Host.Outcome State Fault Refusal :=
  .next (skipIf (s.reg x != nn) s)

/-- 5XY0, skip if VX = VY (41_skip.md R153). -/
def execSeVxVy (x y : Reg) (s : State) : Host.Outcome State Fault Refusal :=
  .next (skipIf (s.reg x == s.reg y) s)

/-- 9XY0, skip if VX ≠ VY (41_skip.md R154). -/
def execSneVxVy (x y : Reg) (s : State) : Host.Outcome State Fault Refusal :=
  .next (skipIf (s.reg x != s.reg y) s)

end Sys2Proof.Machine
end

