-- ==== Sys2Proof/Machine/Keypad.lean ====
section
/-! DEFINITION. EX9E, EXA1, FX0A with its poll, and the event `set_key` (46_keypad.md, 10_state.md R50). -/

namespace Sys2Proof.Machine

/-- EX9E, skip if the key of VX's low nibble is pressed (46_keypad.md R220). -/
def execSkpVx (x : Reg) (s : State) : Host.Outcome State Fault Refusal :=
  .next (skipIf (s.keyDown (s.lowNibble x)) s)

/-- EXA1, skip if the key of VX's low nibble is not pressed (46_keypad.md R221). -/
def execSknpVx (x : Reg) (s : State) : Host.Outcome State Fault Refusal :=
  .next (skipIf (!s.keyDown (s.lowNibble x)) s)

/-- FX0A, the arming step: PC stays at the instruction (46_keypad.md R222). -/
def execLdVxK (x : Reg) (s : State) : Host.Outcome State Fault Refusal :=
  .next ((s.setWait (.awaitingKey x)).setKlatch s.key)

/-- The least key pressed now and not at the last sample, if any (46_keypad.md R223, R224). -/
def State.newKey (s : State) : Option Reg := allKeys.find? (fun k => s.keyDown k && !s.latched k)

/-- A key number as a byte, 0x00..0x0F (46_keypad.md R223). -/
def keyByte (k : Reg) : Byte := BitVec.ofNat 8 k.val

/-- FX0A, a polling step `KeyWaitPoll(x)` (46_keypad.md R223). -/
def keyWaitPoll (x : Reg) (s : State) : State :=
  match s.newKey with
  | none => s.setKlatch s.key
  | some k => (((s.setReg x (keyByte k)).setWait .none).setKlatch s.key).advance

/-- `set_key(k, pressed)`: KEY[k] <- pressed (10_state.md R50, 60_exceptions.md R252). -/
def setKey (k : Reg) (pressed : Bool) (s : State) : State :=
  s.setKeys (if pressed then s.key ||| BitVec.twoPow 16 k.val else s.key &&& ~~~(BitVec.twoPow 16 k.val))

end Sys2Proof.Machine
end

