-- ==== Sys2Proof/Machine/LoadAlu.lean ====
section
/-! DEFINITION. Register load and arithmetic-logic: 6XNN, 7XNN, 8XY0 to 8XY7, 8XYE (42_load_alu.md). All results are
reduced mod 256 (R172); the flag is written last (R173). -/

namespace Sys2Proof.Machine

/-- 6XNN, VX <- NN (42_load_alu.md R160). -/
def execLdVxNn (x : Reg) (nn : Byte) (s : State) : Host.Outcome State Fault Refusal :=
  .next (s.setReg x nn).advance

/-- 7XNN, VX <- VX + NN, no flag (42_load_alu.md R161). -/
def execAddVxNn (x : Reg) (nn : Byte) (s : State) : Host.Outcome State Fault Refusal :=
  .next (s.setReg x (s.reg x + nn)).advance

/-- 8XY0, VX <- VY (42_load_alu.md R162). -/
def execLdVxVy (x y : Reg) (s : State) : Host.Outcome State Fault Refusal :=
  .next (s.setReg x (s.reg y)).advance

/-- 8XY1, VX <- VX OR VY; VF is not reset (42_load_alu.md R163). -/
def execOrVxVy (x y : Reg) (s : State) : Host.Outcome State Fault Refusal :=
  .next (s.setReg x (s.reg x ||| s.reg y)).advance

/-- 8XY2, VX <- VX AND VY; VF is not reset (42_load_alu.md R164). -/
def execAndVxVy (x y : Reg) (s : State) : Host.Outcome State Fault Refusal :=
  .next (s.setReg x (s.reg x &&& s.reg y)).advance

/-- 8XY3, VX <- VX XOR VY; VF is not reset (42_load_alu.md R165). -/
def execXorVxVy (x y : Reg) (s : State) : Host.Outcome State Fault Refusal :=
  .next (s.setReg x (s.reg x ^^^ s.reg y)).advance

/-- 8XY4, VX <- VX + VY, VF <- carry (42_load_alu.md R166). -/
def execAddVxVy (x y : Reg) (s : State) : Host.Outcome State Fault Refusal :=
  .next (s.setResultFlag x (s.reg x + s.reg y) (carry (s.reg x) (s.reg y))).advance

/-- 8XY5, VX <- VX − VY, VF <- no borrow (42_load_alu.md R167). -/
def execSubVxVy (x y : Reg) (s : State) : Host.Outcome State Fault Refusal :=
  .next (s.setResultFlag x (s.reg x - s.reg y) (noBorrow (s.reg x) (s.reg y))).advance

/-- 8XY6, the shift source shifted right by one, VF <- its bit 0 (42_load_alu.md R169, R170). -/
def execShrVxVy (x y : Reg) (s : State) : Host.Outcome State Fault Refusal :=
  .next (s.setResultFlag x (s.shiftOperand x y >>> 1) (shiftedOutRight (s.shiftOperand x y))).advance

/-- 8XY7, VX <- VY − VX, VF <- no borrow (42_load_alu.md R168). -/
def execSubnVxVy (x y : Reg) (s : State) : Host.Outcome State Fault Refusal :=
  .next (s.setResultFlag x (s.reg y - s.reg x) (noBorrow (s.reg y) (s.reg x))).advance

/-- 8XYE, the shift source shifted left by one, VF <- its bit 7 (42_load_alu.md R171, R170). -/
def execShlVxVy (x y : Reg) (s : State) : Host.Outcome State Fault Refusal :=
  .next (s.setResultFlag x (s.shiftOperand x y <<< 1) (shiftedOutLeft (s.shiftOperand x y))).advance

end Sys2Proof.Machine
end

