-- ==== Sys2Proof/Machine/Random.lean ====
section
/-! DEFINITION. CXNN and the random source (44_random.md). -/

namespace Sys2Proof.Machine

/-- Byte number `n` of a source: the one supplied, or else a free value (44_random.md R191; log 5). -/
def sourceByte (src : RandomSource) (n : Nat) : Byte := (src.supplied[n]?).getD (Config.randomByte src.seed n)

/-- `Rand()`: the byte the run's source answers next (00_scope.md R15, 44_random.md R190). -/
def State.nextRandom (s : State) : Byte := sourceByte s.config.random s.draws

/-- CXNN, VX <- r AND NN; exactly one byte is consumed (44_random.md R190). -/
def execRndVxNn (x : Reg) (nn : Byte) (s : State) : Host.Outcome State Fault Refusal :=
  .next ((s.setReg x (s.nextRandom &&& nn)).setDraws (s.draws + 1)).advance

end Sys2Proof.Machine
end

