-- ==== Sys2Proof/Machine/Timers.lean ====
section
/-! DEFINITION. FX07, FX15, FX18 and the event `tick` (47_timers.md). -/

namespace Sys2Proof.Machine

/-- FX07, VX <- DT (47_timers.md R230). -/
def execLdVxDt (x : Reg) (s : State) : Host.Outcome State Fault Refusal :=
  .next (s.setReg x s.dt).advance

/-- FX15, DT <- VX (47_timers.md R231). -/
def execLdDtVx (x : Reg) (s : State) : Host.Outcome State Fault Refusal :=
  .next (s.setDt (s.reg x)).advance

/-- FX18, ST <- VX (47_timers.md R232). -/
def execLdStVx (x : Reg) (s : State) : Host.Outcome State Fault Refusal :=
  .next (s.setSt (s.reg x)).advance

/-- One count down that stops at 0 (47_timers.md R233). -/
def countDown (b : Byte) : Byte := if b = 0 then 0 else b - 1

/-- `tick()`: both timers count down, nothing else changes, in every state (47_timers.md R233, R234). -/
def tick (s : State) : State := (s.setDt (countDown s.dt)).setSt (countDown s.st)

end Sys2Proof.Machine
end

