-- ==== Sys2Proof/Machine/Cycle.lean ====
section
/-! DEFINITION. The core's event `step()` (40_cycle_flow.md R130) and its typed result (R134). -/

namespace Sys2Proof.Machine

/-- Decode and execute a fetched word, or fault with it (30_encoding.md R106, 60_exceptions.md R241). -/
def executeWord (op : Word) (s : State) : Host.Outcome State Fault Refusal :=
  match decodeWord op with
  | .ok i => exec i s
  | .error _ => .next (raise .unknownOpcodeError op s)

/-- `step()` (40_cycle_flow.md R130): a halted core changes nothing (R133); a waiting core polls (46_keypad.md R223);
otherwise fetch, where a failing fetch faults with opcode 0x0000 (R131, 60_exceptions.md R245), decode, execute. -/
def coreStep (s : State) : Host.Outcome State Fault Refusal :=
  match s.fault, s.wait with
  | some _, _ => .next s
  | none, .awaitingKey x => .next (keyWaitPoll x s)
  | none, .none =>
    match s.fetch with
    | .ok op => executeWord op s
    | .error k => .next (raise k 0 s)

/-- The result of `step()` (40_cycle_flow.md R134). -/
inductive StepResult where
  | ok
  | fault (r : FaultRecord)
  deriving DecidableEq, Repr

/-- The result of the `step()` that left the state `s`: the latched record, if there is one, since only a step that
faults, or one on a halted core, leaves a latched record (40_cycle_flow.md R133, R134; log 1). -/
def State.stepResult (s : State) : StepResult :=
  match s.fault with
  | none => .ok
  | some r => .fault r

end Sys2Proof.Machine
end

