-- ==== Sys2Proof/Machine/HostInterface.lean ====
section
/-! DEFINITION. The host's operations other than the events of a run (60_exceptions.md R260): the loader, used before
the first `step()` to make a start state (70_reset_and_hazards.md R285, R286), and the read-only views. -/

namespace Sys2Proof.Machine

/-- `load_font()`: the font bytes written again, without the write protection (70_reset_and_hazards.md R282). -/
def loadFont (s : State) : State :=
  s.setMem (storeBytes s.config s.mem fontBase s.config.font.toList)

/-- Why `load_program` rejects an image (60_exceptions.md R249): results of the loader, not faults. -/
inductive LoadError where
  | emptyProgramError
  | programTooLargeError
  deriving DecidableEq, Repr

/-- `load_program(bytes)` (70_reset_and_hazards.md R283): the loaded state, or the error, which leaves the state as it
was. -/
def loadProgram (image : List Byte) (s : State) : Except LoadError State :=
  if image.length = 0 then .error .emptyProgramError
  else if maxProg < image.length then .error .programTooLargeError
  else .ok (s.setMem (storeBytes s.config s.mem progBase image))

/-- `SOUND = (ST ≠ 0)` (10_state.md R42, 47_timers.md R235). -/
def State.sound (s : State) : Bool := s.st != 0

/-- The host's snapshot of the framebuffer: 2048 bits, cell (x, y) at `64·y + x` (10_state.md R49). -/
def State.snapshot (s : State) : List Bool :=
  (List.range (fbWidth * fbHeight)).map (fun k => cell s.fb (k / fbWidth) (k % fbWidth))

end Sys2Proof.Machine
end

