-- ==== Sys2Proof/Machine/Step.lean ====
section
/-! DEFINITION. One step of the machine: the next event of the run (60_exceptions.md R252), and the placing of a word
where the next step fetches. -/

namespace Sys2Proof.Machine

/-- One event (60_exceptions.md R252), each atomic (00_scope.md R5, R16). -/
def perform (e : Event) (s : State) : Host.Outcome State Fault Refusal :=
  match e with
  | .step => coreStep s
  | .tick => .next (tick s)
  | .setKey k pressed => .next (setKey k pressed s)

/-- The machine's step: the first event of the schedule, which it leaves; the core's `step()` when the schedule is
empty (log 4). -/
def step (s : State) : Host.Outcome State Fault Refusal :=
  match s.inputs with
  | [] => coreStep s
  | e :: rest => perform e (s.setInputs rest)

/-- `s` with the word `w` of `nbits` bits stored at PC, high byte first, and with no latched fault, no wait and no
event in the way, so that the next step fetches and runs it (log 13). At a PC that cannot be fetched nothing is stored. -/
def State.withFetchWord (s : State) (nbits w : Nat) : State :=
  let op : Word := BitVec.ofNat 16 (w % 2 ^ nbits)
  let ready := ((s.setFault none).setWait .none).setInputs []
  if s.pc.toNat + 1 < memSize then
    ready.setMem (storeBytes s.config s.mem s.pc.toNat [highByte op, lowByte op])
  else ready

end Sys2Proof.Machine
end

