-- ==== Sys2Proof/Safety.lean ====
section
/-! DEFINITION. The terms in which claims are made: what a step leaves unchanged, the invariant of the machine, the
launch state and the end of a run. -/

namespace Sys2Proof.Machine

/-- The parts of the state, for saying what an instruction leaves unchanged. -/
inductive Part where
  | config | regs | index | pc | stack | delay | sound | waiting | latch | memory | display | keys | keyLatch | draws
  | inputs
  deriving DecidableEq, Repr

/-- The part `p` reads the same in `s` and `t`. -/
def Unchanged (p : Part) (s t : State) : Prop :=
  match p with
  | .config => t.config = s.config
  | .regs => ∀ r, t.reg r = s.reg r
  | .index => t.i = s.i
  | .pc => t.pc = s.pc
  | .stack => t.sp = s.sp ∧ ∀ k, t.slot k = s.slot k
  | .delay => t.dt = s.dt
  | .sound => t.st = s.st
  | .waiting => t.wait = s.wait
  | .latch => t.fault = s.fault
  | .memory => ∀ a, t.byte a = s.byte a
  | .display => ∀ y x, cell t.fb y x = cell s.fb y x
  | .keys => ∀ k, t.keyDown k = s.keyDown k
  | .keyLatch => ∀ k, t.latched k = s.latched k
  | .draws => t.draws = s.draws
  | .inputs => t.inputs = s.inputs

/-- From `s` to `t` no part outside `ps` changes: the frame of an instruction. -/
def OnlyChanges (ps : List Part) (s t : State) : Prop := ∀ p, p ∉ ps → Unchanged p s t

/-- From `s` to `t` no data register outside `rs` changes. -/
def RegsOnly (rs : List Reg) (s t : State) : Prop := ∀ r, r ∉ rs → t.reg r = s.reg r

/-- The core is neither halted nor waiting: its `step()` fetches (40_cycle_flow.md R130). -/
def State.Running (s : State) : Prop := s.fault = none ∧ s.wait = .none

/-- The word at PC, when both its bytes exist (40_cycle_flow.md R131, 20_memory.md R70). -/
def State.wordAtPc (s : State) : Word := wordOfBytes (s.byte s.pc.toNat) (s.byte (s.pc.toNat + 1))

/-- Both bytes of a fetch exist (40_cycle_flow.md R131). -/
def State.Fetchable (s : State) : Prop := s.pc.toNat + 1 < memSize

/-- The core's `step()` comes next: the schedule is empty or begins with it (60_exceptions.md R252). -/
def State.CoreNext (s : State) : Prop := s.inputs = [] ∨ s.inputs.head? = some .step

/-- The state with the event that comes next taken off the schedule. -/
def State.eventTaken (s : State) : State := s.setInputs s.inputs.tail

/-- The invariant of the machine. -/
structure State.Inv (s : State) : Prop where
  /-- Memory is in canonical form (log 8). -/
  memCanonical : s.mem.wf s.config
  /-- Nothing below 0x200 differs from its reset contents (20_memory.md R75, R78). -/
  lowMemory : ∀ p ∈ s.mem, progBase ≤ p.1
  /-- `I ≤ 0xFFF` (10_state.md R38). -/
  indexRange : s.i.toNat ≤ 0xFFF
  /-- SP never exceeds 16 (10_state.md R39). -/
  spRange : s.sp.toNat ≤ stackDepth
  /-- The largest value PC can hold is 0x10FE (10_state.md R36). -/
  pcRange : s.pc.toNat ≤ 0x10FE
  /-- Every return address is at most 0x1000 (40_cycle_flow.md R135, R137). -/
  slotRange : ∀ k, (s.slot k).toNat ≤ 0x1000
  /-- While the core waits for VX, PC holds the address of an FX0A naming X (46_keypad.md R222, 20_memory.md R85). -/
  waitingAtKeyWait : ∀ x, s.wait = .awaitingKey x → s.Fetchable ∧ decodeWord s.wordAtPc = .ok (.ldVxK x)
  /-- A halted core is not waiting, and its record names the PC and the depth it still has (60_exceptions.md R245,
  R246, R247). -/
  haltedRecord : ∀ r, s.fault = some r → s.wait = .none ∧ r.pc = s.pc ∧ r.depth = s.sp

/-- `Launched(image)`: the state right after construction with the profile, font and random source of `c` (parameters of a
claim, as R297 says) and a successful load of `image`. KEY is
free, and so is the schedule of events of the run (70_reset_and_hazards.md R297). -/
def Launched (c : Config) (image : List Byte) (s : State) : Prop :=
  imageOk image = true ∧
  s = (((State.construct c).setMem (storeBytes c [] progBase image)).setKeys s.key).setInputs s.inputs

/-- The offered end of a run: PC holds the address of a jump to itself, and the core neither waits nor is halted
(70_reset_and_hazards.md R295). -/
def State.Ended (s : State) : Prop :=
  s.Running ∧ s.Fetchable ∧ ∃ nnn : Addr, decodeWord s.wordAtPc = .ok (.jpNnn nnn) ∧ s.pc = target nnn

/-! ### What the rules of single instructions speak of -/

/-- A sprite bit that is 1 lands on the cell at row `row`, column `col`: bit `7 − c` of sprite byte `r`, on the column
`c` right of VX mod 64 and the row `r` below VY mod 32, clipped or wrapped (45_display.md R201, R202, R203). -/
def SpriteLights (s : State) (x y : Reg) (n : Nibble) (row col : Nat) : Prop :=
  ∃ r c : Nat, r < n.toNat ∧ c < 8 ∧ (s.byte (s.i.toNat + r)).getLsbD (7 - c) = true ∧
    match s.config.spriteEdge with
    | .clip => row = (s.reg y).toNat % 32 + r ∧ col = (s.reg x).toNat % 64 + c
    | .wrap => row = ((s.reg y).toNat % 32 + r) % 32 ∧ col = ((s.reg x).toNat % 64 + c) % 64

/-- A key that is pressed now and was not at the last sample (46_keypad.md R223). -/
def State.NewlyPressed (s : State) (k : Reg) : Prop := s.keyDown k = true ∧ s.latched k = false

/-- The words that are no instruction, family by family (30_encoding.md R108). -/
def UnknownWord (op : Word) : Prop :=
  (op.toNat / 4096 = 0x0 ∧ op.toNat ≠ 0x00E0 ∧ op.toNat ≠ 0x00EE) ∨
  (op.toNat / 4096 = 0x5 ∧ op.toNat % 16 ≠ 0) ∨
  (op.toNat / 4096 = 0x8 ∧ op.toNat % 16 ∈ [0x8, 0x9, 0xA, 0xB, 0xC, 0xD, 0xF]) ∨
  (op.toNat / 4096 = 0x9 ∧ op.toNat % 16 ≠ 0) ∨
  (op.toNat / 4096 = 0xE ∧ op.toNat % 256 ∉ [0x9E, 0xA1]) ∨
  (op.toNat / 4096 = 0xF ∧ op.toNat % 256 ∉ [0x07, 0x0A, 0x15, 0x18, 0x1E, 0x29, 0x33, 0x55, 0x65])

/-- The return address a 00EE would pop (40_cycle_flow.md R135). -/
def State.top (s : State) : Word := (s.stk[s.sp.toNat - 1]?).getD 0

/-- Where an instruction that does not fault leaves PC, as a number (10_state.md R35). -/
def pcAfter (i : Instr) (s : State) : Nat :=
  match i with
  | .seVxNn x nn => if s.reg x = nn then s.pc.toNat + 4 else s.pc.toNat + 2
  | .sneVxNn x nn => if s.reg x ≠ nn then s.pc.toNat + 4 else s.pc.toNat + 2
  | .seVxVy x y => if s.reg x = s.reg y then s.pc.toNat + 4 else s.pc.toNat + 2
  | .sneVxVy x y => if s.reg x ≠ s.reg y then s.pc.toNat + 4 else s.pc.toNat + 2
  | .skpVx x => if s.keyDown (s.lowNibble x) = true then s.pc.toNat + 4 else s.pc.toNat + 2
  | .sknpVx x => if s.keyDown (s.lowNibble x) = false then s.pc.toNat + 4 else s.pc.toNat + 2
  | .jpNnn nnn | .callNnn nnn => nnn.toNat
  | .jpV0Nnn nnn => nnn.toNat + (s.reg 0).toNat
  | .ret => s.top.toNat
  | .ldVxK _ => s.pc.toNat
  | .cls | .ldVxNn _ _ | .addVxNn _ _ | .ldVxVy _ _ | .orVxVy _ _ | .andVxVy _ _ | .xorVxVy _ _ | .addVxVy _ _
  | .subVxVy _ _ | .shrVxVy _ _ | .subnVxVy _ _ | .shlVxVy _ _ | .ldINnn _ | .rndVxNn _ _ | .drwVxVyN _ _ _
  | .ldVxDt _ | .ldDtVx _ | .ldStVx _ | .addIVx _ | .ldFVx _ | .ldBVx _ | .ldMemVx _ | .ldVxMem _ => s.pc.toNat + 2

/-- The fault of an instruction, if any (60_exceptions.md R240, R242, R243, R244; for SP ≤ 16). -/
def instrFault (i : Instr) (s : State) : Option FaultKind :=
  match i with
  | .callNnn _ => if s.sp.toNat = 16 then some .stackOverflowError else none
  | .ret => if s.sp.toNat = 0 then some .stackUnderflowError else none
  | .drwVxVyN _ _ n => if 1 ≤ n.toNat ∧ 4096 ≤ s.i.toNat + n.toNat - 1 then some .memoryBoundsFault else none
  | .ldBVx _ =>
    if 0xFFE ≤ s.i.toNat then some .memoryBoundsFault
    else if s.i.toNat < 0x200 then some .writeProtectFault else none
  | .ldMemVx x =>
    if 4096 ≤ s.i.toNat + x.val then some .memoryBoundsFault
    else if s.i.toNat < 0x200 then some .writeProtectFault else none
  | .ldVxMem x => if 4096 ≤ s.i.toNat + x.val then some .memoryBoundsFault else none
  | .cls | .jpNnn _ | .seVxNn _ _ | .sneVxNn _ _ | .seVxVy _ _ | .ldVxNn _ _ | .addVxNn _ _ | .ldVxVy _ _ | .orVxVy _ _
  | .andVxVy _ _ | .xorVxVy _ _ | .addVxVy _ _ | .subVxVy _ _ | .shrVxVy _ _ | .subnVxVy _ _ | .shlVxVy _ _
  | .sneVxVy _ _ | .ldINnn _ | .jpV0Nnn _ | .rndVxNn _ _ | .skpVx _ | .sknpVx _ | .ldVxDt _ | .ldVxK _ | .ldDtVx _
  | .ldStVx _ | .addIVx _ | .ldFVx _ => none

/-- The fault of a `step()` of a running core, if any: fetch, then decode, then the instruction's own check
(60_exceptions.md R248). -/
def stepFault (s : State) : Option FaultKind :=
  if 0xFFF ≤ s.pc.toNat then some .memoryBoundsFault
  else match decodeWord s.wordAtPc with
    | .error _ => some .unknownOpcodeError
    | .ok i => instrFault i s

end Sys2Proof.Machine
end

