-- ==== Sys2Proof/Certificates/Slice0/Obligations.lean ====
section
/-! DEFINITION. The statements for the provers. Each is of every state, or of every state that meets the hypotheses
written out; `exec i s` is of the state `s` at the start of the step, so `s.pc` is the address of the instruction
(log 3). A part of the state not named in `OnlyChanges`, and a register not named in `RegsOnly`, is unchanged. -/

open Sys2Proof Sys2Proof.Machine

/-! ### Encoding -/

/-- Decoding the bytes of a well-formed instruction gives it back, and leaves the bytes after it. -/
def Obligations.DecodeOfEncodeIsTheInstruction : Prop :=
  ∀ (i : Instr) (rest : List Byte), i.WellFormed → decode (encodeBytes i ++ rest) = .ok (i, rest)

/-- No bit of a word is dropped by decoding it (30_encoding.md R107). -/
def Obligations.EncodeOfDecodedWordIsTheWord : Prop :=
  ∀ (op : Word) (i : Instr), decodeWord op = .ok i → encode i = op

/-- 30_encoding.md R104: a word is an instruction iff it matches its row; no word matches two rows. -/
def Obligations.WordDecodesIffItMatchesARow : Prop :=
  (∀ (op : Word) (i : Instr), decodeWord op = .ok i → op &&& i.row.1 = i.row.2) ∧
  (∀ (op : Word) (i : Instr), op &&& i.row.1 = i.row.2 → ∃ j, decodeWord op = .ok j ∧ j.row = i.row) ∧
  (∀ (op : Word) (i j : Instr), op &&& i.row.1 = i.row.2 → op &&& j.row.1 = j.row.2 → i.row = j.row)

/-- 30_encoding.md R106, R108: exactly the words of the listed families are rejected, each by name with its word. -/
def Obligations.UnknownWordsAreRejectedByName : Prop :=
  ∀ op : Word, (UnknownWord op → decodeWord op = .error (.unknownOpcode op)) ∧
    (¬ UnknownWord op → ∃ i, decodeWord op = .ok i)

/-- Words written out from the encodings of spec/opcode_table.json decode to what they stand for
(95_test_vectors.md E1 to E5, and one word of each other family). -/
def Obligations.SampleWordsDecodeAsTheTableSays : Prop :=
  decodeTableWord 16 0x6A9D = some (.ldVxNn 0xA 0x9D) ∧ decodeTableWord 16 0xD125 = some (.drwVxVyN 1 2 5) ∧
  decodeTableWord 16 0x8AB4 = some (.addVxVy 0xA 0xB) ∧ decodeTableWord 16 0xF265 = some (.ldVxMem 2) ∧
  decodeTableWord 16 0x2ABC = some (.callNnn 0xABC) ∧ decodeTableWord 16 0x4311 = some (.sneVxNn 3 0x11) ∧
  decodeTableWord 16 0xC30F = some (.rndVxNn 3 0x0F) ∧ decodeTableWord 16 0xE29E = some (.skpVx 2) ∧
  decodeTableWord 16 0xF418 = some (.ldStVx 4) ∧ decodeTableWord 16 0x00E1 = none

/-! ### Memory -/

/-- 20_memory.md R74: a byte read gives the byte below 4096 and the bounds fault from there on. -/
def Obligations.ReadGivesTheByteOrTheBoundsFault : Prop :=
  ∀ (s : State) (a : Nat), (a < 4096 → s.memRead a = .ok (s.byte a)) ∧
    (4096 ≤ a → s.memRead a = .error .memoryBoundsFault)

/-- 20_memory.md R75: a byte write changes its own byte and nothing else, or faults. -/
def Obligations.WriteChangesItsByteOrFaults : Prop :=
  ∀ (s : State) (a : Nat) (v : Byte),
    (4096 ≤ a → s.memWrite a v = .error .memoryBoundsFault) ∧
    (a < 0x200 → s.memWrite a v = .error .writeProtectFault) ∧
    (0x200 ≤ a → a < 4096 → ∃ t, s.memWrite a v = .ok t ∧ t.byte a = v ∧
      (∀ b, b ≠ a → t.byte b = s.byte b) ∧ OnlyChanges [.memory] s t)

/-- Two canonical memories with the same bytes are the same data (the model's own form, log 8). -/
def Obligations.CanonicalMemoryIsDeterminedByItsBytes : Prop :=
  ∀ (c : Config) (m k : Memory), m.wf c → k.wf c → (∀ a, a < 4096 → m.read c a = k.read c a) → m = k

/-- 20_memory.md R70: the fetched word is 256 · MEM[PC] + MEM[PC+1]. -/
def Obligations.FetchIsBigEndian : Prop :=
  ∀ s : State, s.Fetchable → ∃ op, s.fetch = .ok op ∧
    op.toNat = 256 * (s.byte s.pc.toNat).toNat + (s.byte (s.pc.toNat + 1)).toNat

/-! ### The step -/

/-- 40_cycle_flow.md R130: when the bytes at PC decode to `i`, a step of a core that is neither halted nor waiting is
`exec i`, on the state with the event taken off the schedule (log 4). -/
def Obligations.StepRunsTheDecodedInstruction : Prop :=
  ∀ (s : State) (i : Instr), s.CoreNext → s.Running → s.Fetchable → decodeWord s.wordAtPc = .ok i →
    step s = exec i s.eventTaken

/-- 40_cycle_flow.md R133: a step on a halted core changes nothing and answers the latched fault again. -/
def Obligations.HaltedStepChangesNothing : Prop :=
  ∀ (s : State) (r : FaultRecord), s.fault = some r →
    coreStep s = .next s ∧ s.stepResult = .fault r

/-- 60_exceptions.md R247: with no event to come, a halted core stays as it is for ever. -/
def Obligations.HaltedCoreNeverResumes : Prop :=
  ∀ (s : State) (r : FaultRecord) (n : Nat), s.fault = some r → s.inputs = [] → core.run n s = .next s

/-- 40_cycle_flow.md R131: a fetch whose second byte is beyond memory faults as a whole, with opcode 0x0000. -/
def Obligations.FetchBeyondMemoryFaults : Prop :=
  ∀ s : State, s.Running → 0xFFF ≤ s.pc.toNat → ∃ t, coreStep s = .next t ∧
    t.fault = some { kind := .memoryBoundsFault, opcode := 0x0000, pc := s.pc, depth := s.sp } ∧
    OnlyChanges [.latch] s t

/-- 30_encoding.md R106: a word that is no instruction raises `UnknownOpcodeError` carrying it. -/
def Obligations.UnknownOpcodeFaultsWithTheWord : Prop :=
  ∀ s : State, s.Running → s.Fetchable → UnknownWord s.wordAtPc → ∃ t, coreStep s = .next t ∧
    t.fault = some { kind := .unknownOpcodeError, opcode := s.wordAtPc, pc := s.pc, depth := s.sp } ∧
    OnlyChanges [.latch] s t

/-- 60_exceptions.md R245, R246: a step that faults changes nothing but the latch, and the record holds the fetched
word (0x0000 if the fetch faulted), the address of the instruction and the stack depth. -/
def Obligations.FaultsArePrecise : Prop :=
  ∀ (s t : State) (r : FaultRecord), s.Running → coreStep s = .next t → t.fault = some r →
    t = s.setFault (some r) ∧ r.pc = s.pc ∧ r.depth = s.sp ∧
    (s.Fetchable → r.opcode = s.wordAtPc) ∧ (¬ s.Fetchable → r.opcode = 0x0000) ∧ t.stepResult = .fault r

/-- 60_exceptions.md R240, R243, R244, R248: which fault a step of a running core raises, and when. -/
def Obligations.EachFaultIsRaisedExactlyWhenItsConditionHolds : Prop :=
  ∀ s : State, s.Running → s.sp.toNat ≤ 16 → ∃ t, coreStep s = .next t ∧ t.fault.map (·.kind) = stepFault s

/-- 10_state.md R35: where an instruction that does not fault leaves PC; PC stays while a key-wait lasts and moves by 2
when it completes; PC stays in a step that faults. -/
def Obligations.PcAfterEachInstruction : Prop :=
  (∀ (i : Instr) (s t : State), s.fault = none → s.Fetchable → exec i s = .next t → t.fault = none →
    t.pc.toNat = pcAfter i s) ∧
  (∀ (s : State) (x : Reg), s.fault = none → s.wait = .awaitingKey x → s.Fetchable → ∃ t, coreStep s = .next t ∧
    (t.wait ≠ .none → t.pc = s.pc) ∧ (t.wait = .none → t.pc.toNat = s.pc.toNat + 2)) ∧
  (∀ s t : State, s.Running → coreStep s = .next t → t.fault ≠ none → t.pc = s.pc)

/-! ### Control transfer -/

/-- 40_cycle_flow.md R136, R138: 1NNN and BNNN write PC and nothing else. -/
def Obligations.JumpsWritePc : Prop :=
  ∀ (s : State) (nnn : Addr),
    (∃ t, exec (.jpNnn nnn) s = .next t ∧ t.pc.toNat = nnn.toNat ∧ OnlyChanges [.pc] s t) ∧
    (∃ t, exec (.jpV0Nnn nnn) s = .next t ∧ t.pc.toNat = nnn.toNat + (s.reg 0).toNat ∧ OnlyChanges [.pc] s t)

/-- 40_cycle_flow.md R137: 2NNN pushes the address of the next instruction, and faults on a full stack (SP > 16 is a
stop of the model's own: log 9, `StepAlwaysAnswersANextState`). -/
def Obligations.CallPushesTheNextAddress : Prop :=
  ∀ (s : State) (nnn : Addr),
    (s.sp.toNat < 16 → ∃ t, exec (.callNnn nnn) s = .next t ∧ t.pc.toNat = nnn.toNat ∧
      t.sp.toNat = s.sp.toNat + 1 ∧
      (∀ k : Fin 16, t.slot k = if k.val = s.sp.toNat then s.pc + 2 else s.slot k) ∧
      OnlyChanges [.pc, .stack] s t) ∧
    (s.sp.toNat = 16 → ∃ t, exec (.callNnn nnn) s = .next t ∧
      t.fault = some { kind := .stackOverflowError, opcode := encode (.callNnn nnn), pc := s.pc, depth := 16 } ∧
      OnlyChanges [.latch] s t)

/-- 40_cycle_flow.md R135: 00EE pops the return address and keeps every slot, and faults on an empty stack
(SP > 16 is a stop of the model's own: log 9, `StepAlwaysAnswersANextState`). -/
def Obligations.ReturnPopsTheLastAddress : Prop :=
  ∀ s : State,
    (∀ k : Fin 16, s.sp.toNat = k.val + 1 → ∃ t, exec .ret s = .next t ∧ t.pc = s.slot k ∧ t.sp.toNat = k.val ∧
      (∀ j, t.slot j = s.slot j) ∧ OnlyChanges [.pc, .stack] s t) ∧
    (s.sp.toNat = 0 → ∃ t, exec .ret s = .next t ∧
      t.fault = some { kind := .stackUnderflowError, opcode := 0x00EE, pc := s.pc, depth := 0 } ∧
      OnlyChanges [.latch] s t)

/-- 40_cycle_flow.md R139: after a call, whatever runs next, if SP and the pushed slot are as the call left them then
a 00EE returns to the instruction after the call. -/
def Obligations.ReturnFollowsTheCall : Prop :=
  ∀ (s t u : State) (nnn : Addr), s.sp.toNat < 16 → exec (.callNnn nnn) s = .next t →
    u.sp = t.sp → (∀ k : Fin 16, k.val = s.sp.toNat → u.slot k = t.slot k) →
    ∃ w, exec .ret u = .next w ∧ w.pc = s.pc + 2 ∧ w.sp = s.sp

/-- 30_encoding.md R111, 70_reset_and_hazards.md R295: at a jump to itself a step leaves the whole state as it is. -/
def Obligations.SelfJumpIsAFixedPoint : Prop :=
  ∀ s : State, s.Ended → coreStep s = .next s

/-! ### Skips -/

/-- 41_skip.md R151 to R154: the skips of two operands move PC 4 on when the condition holds and 2 when not, and write
nothing else. -/
def Obligations.SkipsCompareAndMovePc : Prop :=
  ∀ (s : State) (x y : Reg) (nn : Byte),
    (∃ t, exec (.seVxNn x nn) s = .next t ∧ t.pc = (if s.reg x = nn then s.pc + 4 else s.pc + 2) ∧
      OnlyChanges [.pc] s t) ∧
    (∃ t, exec (.sneVxNn x nn) s = .next t ∧ t.pc = (if s.reg x = nn then s.pc + 2 else s.pc + 4) ∧
      OnlyChanges [.pc] s t) ∧
    (∃ t, exec (.seVxVy x y) s = .next t ∧ t.pc = (if s.reg x = s.reg y then s.pc + 4 else s.pc + 2) ∧
      OnlyChanges [.pc] s t) ∧
    (∃ t, exec (.sneVxVy x y) s = .next t ∧ t.pc = (if s.reg x = s.reg y then s.pc + 2 else s.pc + 4) ∧
      OnlyChanges [.pc] s t)

/-- 46_keypad.md R220, R221: EX9E skips if the key of VX's low nibble is pressed, EXA1 if it is not. -/
def Obligations.KeySkipsReadTheInputMap : Prop :=
  ∀ (s : State) (x k : Reg), k.val = (s.reg x).toNat % 16 →
    (∃ t, exec (.skpVx x) s = .next t ∧ t.pc = (if s.keyDown k = true then s.pc + 4 else s.pc + 2) ∧
      OnlyChanges [.pc] s t) ∧
    (∃ t, exec (.sknpVx x) s = .next t ∧ t.pc = (if s.keyDown k = true then s.pc + 2 else s.pc + 4) ∧
      OnlyChanges [.pc] s t)

/-! ### Load and arithmetic -/

/-- 42_load_alu.md R160, R161, R162: the loads and the flagless add write VX and nothing else. -/
def Obligations.LoadsAndImmediateAddWriteVx : Prop :=
  ∀ (s : State) (x y : Reg) (nn : Byte),
    (∃ t, exec (.ldVxNn x nn) s = .next t ∧ t.reg x = nn ∧ t.pc = s.pc + 2 ∧
      RegsOnly [x] s t ∧ OnlyChanges [.regs, .pc] s t) ∧
    (∃ t, exec (.addVxNn x nn) s = .next t ∧ (t.reg x).toNat = ((s.reg x).toNat + nn.toNat) % 256 ∧
      t.pc = s.pc + 2 ∧ RegsOnly [x] s t ∧ OnlyChanges [.regs, .pc] s t) ∧
    (∃ t, exec (.ldVxVy x y) s = .next t ∧ t.reg x = s.reg y ∧ t.pc = s.pc + 2 ∧
      RegsOnly [x] s t ∧ OnlyChanges [.regs, .pc] s t)

/-- 42_load_alu.md R163, R164, R165: the logic instructions, bit by bit; they write VX and nothing else. -/
def Obligations.LogicIsBitwiseAndLeavesTheFlag : Prop :=
  ∀ (s : State) (x y : Reg),
    (∃ t, exec (.orVxVy x y) s = .next t ∧
      (∀ j, j < 8 → (t.reg x).getLsbD j = ((s.reg x).getLsbD j || (s.reg y).getLsbD j)) ∧
      t.pc = s.pc + 2 ∧ RegsOnly [x] s t ∧ OnlyChanges [.regs, .pc] s t) ∧
    (∃ t, exec (.andVxVy x y) s = .next t ∧
      (∀ j, j < 8 → (t.reg x).getLsbD j = ((s.reg x).getLsbD j && (s.reg y).getLsbD j)) ∧
      t.pc = s.pc + 2 ∧ RegsOnly [x] s t ∧ OnlyChanges [.regs, .pc] s t) ∧
    (∃ t, exec (.xorVxVy x y) s = .next t ∧
      (∀ j, j < 8 → (t.reg x).getLsbD j = ((s.reg x).getLsbD j ^^ (s.reg y).getLsbD j)) ∧
      t.pc = s.pc + 2 ∧ RegsOnly [x] s t ∧ OnlyChanges [.regs, .pc] s t)

/-- 42_load_alu.md R166, R173: 8XY4 adds mod 256 and records the carry; in VF the flag wins. -/
def Obligations.AddRecordsTheCarry : Prop :=
  ∀ (s : State) (x y : Reg), ∃ t, exec (.addVxVy x y) s = .next t ∧
    (x ≠ vF → (t.reg x).toNat = ((s.reg x).toNat + (s.reg y).toNat) % 256) ∧
    t.reg vF = (if 255 < (s.reg x).toNat + (s.reg y).toNat then 1 else 0) ∧
    t.pc = s.pc + 2 ∧ RegsOnly [x, vF] s t ∧ OnlyChanges [.regs, .pc] s t

/-- 42_load_alu.md R167, R168, R173: 8XY5 and 8XY7 subtract mod 256 and record that there was no borrow. -/
def Obligations.SubtractionsRecordNoBorrow : Prop :=
  ∀ (s : State) (x y : Reg),
    (∃ t, exec (.subVxVy x y) s = .next t ∧
      (x ≠ vF → (t.reg x).toNat = ((s.reg x).toNat + 256 - (s.reg y).toNat) % 256) ∧
      t.reg vF = (if (s.reg y).toNat ≤ (s.reg x).toNat then 1 else 0) ∧
      t.pc = s.pc + 2 ∧ RegsOnly [x, vF] s t ∧ OnlyChanges [.regs, .pc] s t) ∧
    (∃ t, exec (.subnVxVy x y) s = .next t ∧
      (x ≠ vF → (t.reg x).toNat = ((s.reg y).toNat + 256 - (s.reg x).toNat) % 256) ∧
      t.reg vF = (if (s.reg x).toNat ≤ (s.reg y).toNat then 1 else 0) ∧
      t.pc = s.pc + 2 ∧ RegsOnly [x, vF] s t ∧ OnlyChanges [.regs, .pc] s t)

/-- 42_load_alu.md R169, R170, R171, R173: the shifts, under either shift source, move by one and record the bit
shifted out. -/
def Obligations.ShiftsRecordTheBitShiftedOut : Prop :=
  ∀ (s : State) (x y : Reg) (b : Byte),
    (s.config.shiftSource = .vx → b = s.reg x) → (s.config.shiftSource = .vy → b = s.reg y) →
    (∃ t, exec (.shrVxVy x y) s = .next t ∧ (x ≠ vF → (t.reg x).toNat = b.toNat / 2) ∧
      (t.reg vF).toNat = b.toNat % 2 ∧
      t.pc = s.pc + 2 ∧ RegsOnly [x, vF] s t ∧ OnlyChanges [.regs, .pc] s t) ∧
    (∃ t, exec (.shlVxVy x y) s = .next t ∧ (x ≠ vF → (t.reg x).toNat = 2 * b.toNat % 256) ∧
      (t.reg vF).toNat = b.toNat / 128 ∧
      t.pc = s.pc + 2 ∧ RegsOnly [x, vF] s t ∧ OnlyChanges [.regs, .pc] s t)

/-! ### Index and memory transfer -/

/-- 43_index_memory.md R180, R182: ANNN and FX29 write I and nothing else. -/
def Obligations.IndexLoadsWriteI : Prop :=
  ∀ (s : State) (x : Reg) (nnn : Addr),
    (∃ t, exec (.ldINnn nnn) s = .next t ∧ t.i.toNat = nnn.toNat ∧ t.pc = s.pc + 2 ∧
      OnlyChanges [.index, .pc] s t) ∧
    (∃ t, exec (.ldFVx x) s = .next t ∧ t.i.toNat = 0x050 + 5 * ((s.reg x).toNat % 16) ∧ t.pc = s.pc + 2 ∧
      OnlyChanges [.index, .pc] s t)

/-- 43_index_memory.md R181: FX1E adds mod 4096, and writes VF under `Q_INDEX_OVF = on` only. -/
def Obligations.IndexAddWrapsAt4096 : Prop :=
  ∀ (s : State) (x : Reg), ∃ t, exec (.addIVx x) s = .next t ∧
    t.i.toNat = (s.i.toNat + (s.reg x).toNat) % 4096 ∧
    (s.config.indexOverflow = .off → ∀ r, t.reg r = s.reg r) ∧
    (s.config.indexOverflow = .on → t.reg vF = if 0xFFF < s.i.toNat + (s.reg x).toNat then 1 else 0) ∧
    t.pc = s.pc + 2 ∧ RegsOnly [vF] s t ∧ OnlyChanges [.index, .regs, .pc] s t

/-- 43_index_memory.md R183: FX33 stores hundreds, tens and ones at I, I+1, I+2, or faults and writes nothing. -/
def Obligations.DecimalStoreWritesThreeDigits : Prop :=
  ∀ (s : State) (x : Reg),
    (0x200 ≤ s.i.toNat → s.i.toNat < 0xFFE → ∃ t, exec (.ldBVx x) s = .next t ∧
      (t.byte s.i.toNat).toNat = (s.reg x).toNat / 100 ∧
      (t.byte (s.i.toNat + 1)).toNat = (s.reg x).toNat / 10 % 10 ∧
      (t.byte (s.i.toNat + 2)).toNat = (s.reg x).toNat % 10 ∧
      (∀ a, a < s.i.toNat ∨ s.i.toNat + 2 < a → t.byte a = s.byte a) ∧
      t.pc = s.pc + 2 ∧ OnlyChanges [.memory, .pc] s t) ∧
    (0xFFE ≤ s.i.toNat → ∃ t, exec (.ldBVx x) s = .next t ∧ OnlyChanges [.latch] s t ∧
      t.fault = some { kind := .memoryBoundsFault, opcode := encode (.ldBVx x), pc := s.pc, depth := s.sp }) ∧
    (s.i.toNat < 0x200 → ∃ t, exec (.ldBVx x) s = .next t ∧ OnlyChanges [.latch] s t ∧
      t.fault = some { kind := .writeProtectFault, opcode := encode (.ldBVx x), pc := s.pc, depth := s.sp })

/-- 43_index_memory.md R184: FX55 stores V0..VX at I..I+X, or faults and writes nothing. -/
def Obligations.RegisterStoreWritesV0ToVx : Prop :=
  ∀ (s : State) (x : Reg),
    (0x200 ≤ s.i.toNat → s.i.toNat + x.val < 4096 → ∃ t, exec (.ldMemVx x) s = .next t ∧
      (∀ j : Reg, j.val ≤ x.val → t.byte (s.i.toNat + j.val) = s.reg j) ∧
      (∀ a, a < s.i.toNat ∨ s.i.toNat + x.val < a → t.byte a = s.byte a) ∧
      t.pc = s.pc + 2 ∧ OnlyChanges [.memory, .pc] s t) ∧
    (4096 ≤ s.i.toNat + x.val → ∃ t, exec (.ldMemVx x) s = .next t ∧ OnlyChanges [.latch] s t ∧
      t.fault = some { kind := .memoryBoundsFault, opcode := encode (.ldMemVx x), pc := s.pc, depth := s.sp }) ∧
    (s.i.toNat < 0x200 → ∃ t, exec (.ldMemVx x) s = .next t ∧ OnlyChanges [.latch] s t ∧
      t.fault = some { kind := .writeProtectFault, opcode := encode (.ldMemVx x), pc := s.pc, depth := s.sp })

/-- 43_index_memory.md R185: FX65 loads V0..VX from I..I+X and keeps the registers above, or faults and loads
nothing. -/
def Obligations.RegisterLoadReadsV0ToVx : Prop :=
  ∀ (s : State) (x : Reg),
    (s.i.toNat + x.val < 4096 → ∃ t, exec (.ldVxMem x) s = .next t ∧
      (∀ j : Reg, t.reg j = if j.val ≤ x.val then s.byte (s.i.toNat + j.val) else s.reg j) ∧
      t.pc = s.pc + 2 ∧ OnlyChanges [.regs, .pc] s t) ∧
    (4096 ≤ s.i.toNat + x.val → ∃ t, exec (.ldVxMem x) s = .next t ∧ OnlyChanges [.latch] s t ∧
      t.fault = some { kind := .memoryBoundsFault, opcode := encode (.ldVxMem x), pc := s.pc, depth := s.sp })

/-- 20_memory.md R85: bytes that FX55 stores over the next instruction are the word the next fetch reads. -/
def Obligations.StoreOverTheNextInstructionIsFetched : Prop :=
  ∀ (s t : State) (x : Reg), s.fault = none → 1 ≤ x.val → s.i = s.pc + 2 → s.pc.toNat < 0xFFC →
    exec (.ldMemVx x) s = .next t → t.fault = none → t.fetch = .ok (wordOfBytes (s.reg 0) (s.reg 1))

/-! ### Random -/

/-- 44_random.md R190, R191: CXNN masks the next byte of the run's source and consumes exactly one. The byte is the one
supplied at the place reached, whatever sequence the run supplies, and a free value past the supplied bytes (log 5). -/
def Obligations.RandomMasksOneFreeByte : Prop :=
  ∀ (s : State) (x : Reg) (nn : Byte), ∃ t, exec (.rndVxNn x nn) s = .next t ∧
    (∀ b, s.config.random.supplied[s.draws]? = some b → t.reg x = b &&& nn) ∧
    (s.config.random.supplied.length ≤ s.draws →
      t.reg x = Config.randomByte s.config.random.seed s.draws &&& nn) ∧
    t.draws = s.draws + 1 ∧ (∀ j, nn.getLsbD j = false → (t.reg x).getLsbD j = false) ∧
    t.pc = s.pc + 2 ∧ RegsOnly [x] s t ∧ OnlyChanges [.regs, .pc, .draws] s t

/-! ### Display -/

/-- 45_display.md R200: 00E0 turns every cell off and writes nothing else. -/
def Obligations.ClearTurnsEveryCellOff : Prop :=
  ∀ s : State, ∃ t, exec .cls s = .next t ∧ (∀ y x, cell t.fb y x = false) ∧ t.pc = s.pc + 2 ∧
    OnlyChanges [.display, .pc] s t

/-- 45_display.md R201, R202, R203: DXYN flips exactly the cells the sprite lights and sets VF to whether one of them
was on; with N > 0 and a row beyond memory it faults, whatever is clipped (R204). -/
def Obligations.DrawFlipsTheLitCells : Prop :=
  ∀ (s : State) (x y : Reg) (n : Nibble),
    (n.toNat = 0 ∨ s.i.toNat + n.toNat ≤ 4096 → ∃ t, exec (.drwVxVyN x y n) s = .next t ∧
      (∀ row col, row < 32 → col < 64 → (SpriteLights s x y n row col → cell t.fb row col = !cell s.fb row col) ∧
        (¬ SpriteLights s x y n row col → cell t.fb row col = cell s.fb row col)) ∧
      ((∃ row col, row < 32 ∧ col < 64 ∧ SpriteLights s x y n row col ∧ cell s.fb row col = true) →
        t.reg vF = 1) ∧
      ((∀ row col, row < 32 → col < 64 → SpriteLights s x y n row col → cell s.fb row col = false) →
        t.reg vF = 0) ∧
      t.pc = s.pc + 2 ∧ RegsOnly [vF] s t ∧ OnlyChanges [.display, .regs, .pc] s t) ∧
    (1 ≤ n.toNat → 4096 < s.i.toNat + n.toNat → ∃ t, exec (.drwVxVyN x y n) s = .next t ∧
      OnlyChanges [.latch] s t ∧
      t.fault = some { kind := .memoryBoundsFault, opcode := encode (.drwVxVyN x y n), pc := s.pc, depth := s.sp })

/-- 45_display.md R206 c: drawing the same sprite twice at the same place restores the framebuffer; on a clear one the
first draw leaves VF = 0 and the second gives 1 exactly if the sprite has a visible 1 bit. -/
def Obligations.DrawingTwiceRestoresTheFramebuffer : Prop :=
  ∀ (s t u w : State) (x y : Reg) (n : Nibble), n.toNat = 0 ∨ s.i.toNat + n.toNat ≤ 4096 →
    exec (.drwVxVyN x y n) s = .next t →
    u.fb = t.fb → u.i = s.i → u.reg x = s.reg x → u.reg y = s.reg y → u.config = s.config →
    (∀ r, r < n.toNat → u.byte (s.i.toNat + r) = s.byte (s.i.toNat + r)) →
    exec (.drwVxVyN x y n) u = .next w →
    w.fb = s.fb ∧
    ((∀ row col, cell s.fb row col = false) → t.reg vF = 0 ∧
      (w.reg vF = 1 ↔ ∃ row col, row < 32 ∧ col < 64 ∧ SpriteLights s x y n row col))

/-- 10_state.md R49: the snapshot has 2048 bits, cell (x, y) at 64·y + x. -/
def Obligations.SnapshotIsRowMajor : Prop :=
  ∀ s : State, s.snapshot.length = 2048 ∧
    ∀ x y, x < 64 → y < 32 → s.snapshot[64 * y + x]? = some (cell s.fb y x)

/-! ### Keypad -/

/-- 46_keypad.md R222: FX0A arms: PC stays, all 16 keys are sampled, no register changes. -/
def Obligations.KeyWaitArms : Prop :=
  ∀ (s : State) (x : Reg), ∃ t, exec (.ldVxK x) s = .next t ∧ t.wait = .awaitingKey x ∧
    (∀ k, t.latched k = s.keyDown k) ∧ t.pc = s.pc ∧ OnlyChanges [.waiting, .keyLatch] s t

/-- 46_keypad.md R223, R224: a poll completes with the least newly pressed key, or only samples the keys. -/
def Obligations.KeyWaitPollCompletesWithTheLeastNewKey : Prop :=
  ∀ (s : State) (x : Reg), s.fault = none → s.wait = .awaitingKey x →
    ((∀ k, ¬ s.NewlyPressed k) → ∃ t, coreStep s = .next t ∧ (∀ k, t.latched k = s.keyDown k) ∧
      OnlyChanges [.keyLatch] s t) ∧
    (∀ k, s.NewlyPressed k → (∀ j, s.NewlyPressed j → k ≤ j) → ∃ t, coreStep s = .next t ∧
      (t.reg x).toNat = k.val ∧ t.wait = .none ∧ (∀ j, t.latched j = s.keyDown j) ∧ t.pc = s.pc + 2 ∧
      RegsOnly [x] s t ∧ OnlyChanges [.regs, .waiting, .keyLatch, .pc] s t)

/-- 46_keypad.md R226: a wait that no key transition and no event ends lasts for any number of steps, in which only
the key sample may change. -/
def Obligations.KeyWaitLastsUntilAKeyIsPressed : Prop :=
  ∀ (s : State) (x : Reg) (n : Nat), s.fault = none → s.wait = .awaitingKey x → s.inputs = [] →
    (∀ k, ¬ s.NewlyPressed k) →
    ∃ t, core.run n s = .next t ∧ t.wait = .awaitingKey x ∧ OnlyChanges [.keyLatch] s t

/-- 10_state.md R50, 60_exceptions.md R252: `set_key` writes one bit of the input map, in every state. -/
def Obligations.SetKeyWritesOneKey : Prop :=
  ∀ (s : State) (k : Reg) (p : Bool) (rest : List Event), s.inputs = .setKey k p :: rest →
    ∃ t, step s = .next t ∧ (∀ j, t.keyDown j = if j = k then p else s.keyDown j) ∧ t.inputs = rest ∧
      OnlyChanges [.keys, .inputs] s t

/-! ### Timers -/

/-- 47_timers.md R230, R231, R232: FX07, FX15, FX18 move a byte between VX and a timer; SOUND follows ST. -/
def Obligations.TimerInstructionsMoveOneByte : Prop :=
  ∀ (s : State) (x : Reg),
    (∃ t, exec (.ldVxDt x) s = .next t ∧ t.reg x = s.dt ∧ t.pc = s.pc + 2 ∧
      RegsOnly [x] s t ∧ OnlyChanges [.regs, .pc] s t) ∧
    (∃ t, exec (.ldDtVx x) s = .next t ∧ t.dt = s.reg x ∧ t.pc = s.pc + 2 ∧ OnlyChanges [.delay, .pc] s t) ∧
    (∃ t, exec (.ldStVx x) s = .next t ∧ t.st = s.reg x ∧ (t.sound = true ↔ s.reg x ≠ 0) ∧ t.pc = s.pc + 2 ∧
      OnlyChanges [.sound, .pc] s t)

/-- 47_timers.md R233, R234: a tick counts both timers down, never below 0, in every state, and touches nothing else. -/
def Obligations.TickCountsBothTimersDown : Prop :=
  ∀ (s : State) (rest : List Event), s.inputs = .tick :: rest →
    ∃ t, step s = .next t ∧ t.dt.toNat = s.dt.toNat - 1 ∧ t.st.toNat = s.st.toNat - 1 ∧ t.inputs = rest ∧
      OnlyChanges [.delay, .sound, .inputs] s t

/-- 10_state.md R41, R42: any number of ticks with no step between takes that number off each timer, stopping at 0. -/
def Obligations.ManyTicksStopAtZero : Prop :=
  ∀ (n : Nat) (s : State) (rest : List Event), s.inputs = List.replicate n .tick ++ rest →
    ∃ t, core.run n s = .next t ∧ t.dt.toNat = s.dt.toNat - n ∧ t.st.toNat = s.st.toNat - n ∧ t.inputs = rest ∧
      OnlyChanges [.delay, .sound, .inputs] s t

/-! ### Who writes what: rules of the whole machine -/

/-- 10_state.md R48, 45_display.md R207: only 00E0 and DXYN write the framebuffer. -/
def Obligations.OnlyClearAndDrawWriteTheFramebuffer : Prop :=
  ∀ (i : Instr) (s t : State), exec i s = .next t → t.fb ≠ s.fb → i = .cls ∨ ∃ x y n, i = .drwVxVyN x y n

/-- 20_memory.md R72: only FX33 and FX55 write memory. -/
def Obligations.OnlyTwoInstructionsWriteMemory : Prop :=
  ∀ (i : Instr) (s t : State) (a : Nat), exec i s = .next t → t.byte a ≠ s.byte a →
    (∃ x, i = .ldBVx x) ∨ ∃ x, i = .ldMemVx x

/-- 10_state.md R38, R39, R41, R42: who writes I, SP and the stack, DT, ST. -/
def Obligations.SpecialRegistersHaveTheirOnlyWriters : Prop :=
  ∀ (i : Instr) (s t : State), exec i s = .next t →
    (t.i ≠ s.i → (∃ nnn, i = .ldINnn nnn) ∨ (∃ x, i = .addIVx x) ∨ ∃ x, i = .ldFVx x) ∧
    (t.sp ≠ s.sp ∨ t.stk ≠ s.stk → i = .ret ∨ ∃ nnn, i = .callNnn nnn) ∧
    (t.dt ≠ s.dt → ∃ x, i = .ldDtVx x) ∧ (t.st ≠ s.st → ∃ x, i = .ldStVx x)

/-- 10_state.md R43, R45, R50, R52, 44_random.md R190: no instruction writes the input map, the profile, the font or the
random source; only FX0A touches the wait and the key sample; only CXNN consumes a random byte, and one. -/
def Obligations.NoInstructionWritesTheInputsOrTheProfile : Prop :=
  ∀ (i : Instr) (s t : State), exec i s = .next t →
    t.key = s.key ∧ t.config = s.config ∧ t.inputs = s.inputs ∧
    (t.wait ≠ s.wait ∨ t.klatch ≠ s.klatch → ∃ x, i = .ldVxK x) ∧
    (t.draws = s.draws ∨ (t.draws = s.draws + 1 ∧ ∃ x nn, i = .rndVxNn x nn))

/-- 10_state.md R32: who may change VF: the flag writers of the profile, and an instruction whose destination it is. -/
def Obligations.VfChangesOnlyAsAFlagOrADestination : Prop :=
  ∀ (i : Instr) (s t : State), exec i s = .next t → t.reg vF ≠ s.reg vF →
    (∃ x y, i = .addVxVy x y ∨ i = .subVxVy x y ∨ i = .shrVxVy x y ∨ i = .subnVxVy x y ∨ i = .shlVxVy x y) ∨
    (∃ x y n, i = .drwVxVyN x y n) ∨ (∃ x, i = .addIVx x ∧ s.config.indexOverflow = .on) ∨
    (∃ nn, i = .ldVxNn vF nn ∨ i = .addVxNn vF nn ∨ i = .rndVxNn vF nn) ∨
    (∃ y, i = .ldVxVy vF y ∨ i = .orVxVy vF y ∨ i = .andVxVy vF y ∨ i = .xorVxVy vF y) ∨
    i = .ldVxDt vF ∨ i = .ldVxMem vF

/-- 20_memory.md R75, R78: no event changes a byte below 0x200, and none changes the profile, the font or the
random source. -/
def Obligations.LowMemoryAndProfileNeverChange : Prop :=
  ∀ s t : State, step s = .next t → t.config = s.config ∧ ∀ a, a < 0x200 → t.byte a = s.byte a

/-! ### The invariant, reset and the loader -/

/-- Every event keeps the invariant: canonical memory with its low part untouched, I ≤ 0xFFF, SP ≤ 16, PC ≤ 0x10FE,
return addresses ≤ 0x1000, a wait only at its FX0A, a latched record that still names PC and SP. -/
def Obligations.StepKeepsTheInvariant : Prop :=
  ∀ s t : State, s.Inv → step s = .next t → t.Inv

/-- From every state with the invariant a step answers a next state, so the machine never gets stuck; and in ANY state
the only stop is that of a 2NNN or 00EE with SP > 16 (the model's own stop, log 9). -/
def Obligations.StepAlwaysAnswersANextState : Prop :=
  (∀ s : State, s.Inv → ∃ t, step s = .next t) ∧
  (∀ s : State, (∀ t, step s ≠ .next t) → step s = .fault .stackPointerBeyondStack ∧ 16 < s.sp.toNat ∧
    (decodeWord s.wordAtPc = .ok .ret ∨ ∃ nnn, decodeWord s.wordAtPc = .ok (.callNnn nnn)))

/-- Construction in any profile with any font and random source, and any launch state with a canonical start, has the invariant
(70_reset_and_hazards.md R281, R297). -/
def Obligations.EveryLaunchStateHasTheInvariant : Prop :=
  (∀ c : Config, (State.construct c).Inv) ∧
  ∀ (c : Config) (image : List Byte) (s : State), Launched c image s → s.Inv

/-- 10_state.md R54, 70_reset_and_hazards.md R281: the state after construction with `c`. -/
def Obligations.ResetValuesAreThoseOfTheTable : Prop :=
  ∀ c : Config, let s := State.construct c
    (∀ r, s.reg r = 0) ∧ s.i = 0 ∧ s.pc = 0x200 ∧ s.sp = 0 ∧ (∀ k, s.slot k = 0) ∧ s.dt = 0 ∧ s.st = 0 ∧ s.sound = false ∧
    (∀ y x, cell s.fb y x = false) ∧ (∀ k, s.keyDown k = false) ∧ (∀ k, s.latched k = false) ∧
    s.wait = .none ∧ s.fault = none ∧
    (∀ (j : Nat) (h : j < 80), s.byte (0x050 + j) = c.font[j]) ∧
    (∀ a, a < 0x050 ∨ 0x09F < a → s.byte a = 0)

/-- 70_reset_and_hazards.md R287: with no program loaded the first step faults on the word 0x0000. -/
def Obligations.EmptyMachineFaultsAtOnce : Prop :=
  step State.reset = .next (State.reset.setFault
    (some { kind := .unknownOpcodeError, opcode := 0x0000, pc := 0x0200, depth := 0 }))

/-- 70_reset_and_hazards.md R283: `load_program` rejects an empty or too long image, and otherwise copies it to 0x200
and changes nothing else. -/
def Obligations.LoadProgramCopiesTheImageOrRejectsIt : Prop :=
  ∀ (image : List Byte) (s : State),
    (image.length = 0 → loadProgram image s = .error .emptyProgramError) ∧
    (3584 < image.length → loadProgram image s = .error .programTooLargeError) ∧
    (1 ≤ image.length → image.length ≤ 3584 → ∃ t, loadProgram image s = .ok t ∧
      (∀ (j : Nat) (h : j < image.length), t.byte (0x200 + j) = image[j]) ∧
      (∀ a, a < 0x200 ∨ 0x200 + image.length ≤ a → t.byte a = s.byte a) ∧ OnlyChanges [.memory] s t)

/-- 70_reset_and_hazards.md R282: `load_font` before the first step changes nothing, on any launch state and on a
constructed one. -/
def Obligations.LoadFontChangesNothing : Prop :=
  ∀ (c : Config) (image : List Byte) (s : State), s = State.construct c ∨ Launched c image s → loadFont s = s
end

