-- ==== Sys2Proof/Laws/Decode.lean ====
section
/-! SUPPORT. The fields of each format are the operands it was made of, and the bytes of a word make it again. -/

namespace Sys2Proof

theorem regNibble_toNat (x : Reg) : (regNibble x).toNat = x.val := by
  simp [regNibble]

/-! ### The fields as numbers -/

theorem majorOf_toNat (op : Word) : (majorOf op).toNat = op.toNat / 4096 := by
  have := op.isLt
  simp only [majorOf, BitVec.extractLsb_toNat, Nat.shiftRight_eq_div_pow]
  omega

theorem fieldX_val (op : Word) : (fieldX op).val = op.toNat / 256 % 16 := by
  simp only [fieldX, BitVec.extractLsb_toNat, Nat.shiftRight_eq_div_pow]

theorem fieldY_val (op : Word) : (fieldY op).val = op.toNat / 16 % 16 := by
  simp only [fieldY, BitVec.extractLsb_toNat, Nat.shiftRight_eq_div_pow]

theorem fieldN_toNat (op : Word) : (fieldN op).toNat = op.toNat % 16 := by
  simp only [fieldN, BitVec.extractLsb_toNat, Nat.shiftRight_eq_div_pow]
  omega

theorem fieldNN_toNat (op : Word) : (fieldNN op).toNat = op.toNat % 256 := by
  simp only [fieldNN, BitVec.extractLsb_toNat, Nat.shiftRight_eq_div_pow]
  omega

theorem fieldNNN_toNat (op : Word) : (fieldNNN op).toNat = op.toNat % 4096 := by
  simp only [fieldNNN, BitVec.extractLsb_toNat, Nat.shiftRight_eq_div_pow]
  omega

/-! ### The formats as numbers -/

theorem append_toNat {m n : Nat} (a : BitVec m) (b : BitVec n) : (a ++ b).toNat = a.toNat * 2 ^ n + b.toNat := by
  rw [BitVec.toNat_append, Nat.shiftLeft_eq, Nat.mul_comm, Nat.two_pow_add_eq_or_of_lt b.isLt]

theorem formatA_toNat (m : Nibble) (nnn : Addr) : (formatA m nnn).toNat = m.toNat * 4096 + nnn.toNat :=
  append_toNat m nnn

theorem formatXI_toNat (m : Nibble) (x : Reg) (nn : Byte) :
    (formatXI m x nn).toNat = m.toNat * 4096 + x.val * 256 + nn.toNat := by
  refine (append_toNat (m ++ regNibble x) nn).trans ?_
  refine (congrArg (· * 2 ^ 8 + nn.toNat) (append_toNat m (regNibble x))).trans ?_
  rw [regNibble_toNat]
  ring

theorem formatX_toNat (m : Nibble) (x : Reg) (nn : Byte) :
    (formatX m x nn).toNat = m.toNat * 4096 + x.val * 256 + nn.toNat := formatXI_toNat m x nn

theorem formatXY_toNat (m : Nibble) (x y : Reg) (n : Nibble) :
    (formatXY m x y n).toNat = m.toNat * 4096 + x.val * 256 + y.val * 16 + n.toNat := by
  refine (append_toNat (m ++ regNibble x ++ regNibble y) n).trans ?_
  refine (congrArg (· * 2 ^ 4 + n.toNat) (append_toNat (m ++ regNibble x) (regNibble y))).trans ?_
  refine (congrArg (fun k => (k * 2 ^ 4 + (regNibble y).toNat) * 2 ^ 4 + n.toNat)
    (append_toNat m (regNibble x))).trans ?_
  rw [regNibble_toNat, regNibble_toNat]
  ring

/-! ### The fields of the formats -/

section
variable (m : Nibble) (nnn : Addr) (x y : Reg) (nn : Byte) (n : Nibble)

@[simp] theorem majorOf_formatA : majorOf (formatA m nnn) = m := by
  apply BitVec.eq_of_toNat_eq
  have := nnn.isLt
  rw [majorOf_toNat, formatA_toNat]
  omega

@[simp] theorem fieldNNN_formatA : fieldNNN (formatA m nnn) = nnn := by
  apply BitVec.eq_of_toNat_eq
  have := nnn.isLt
  rw [fieldNNN_toNat, formatA_toNat]
  omega

@[simp] theorem majorOf_formatXI : majorOf (formatXI m x nn) = m := by
  apply BitVec.eq_of_toNat_eq
  have := nn.isLt
  have := x.isLt
  rw [majorOf_toNat, formatXI_toNat]
  omega

@[simp] theorem fieldX_formatXI : fieldX (formatXI m x nn) = x := by
  apply Fin.ext
  have := nn.isLt
  have := x.isLt
  rw [fieldX_val, formatXI_toNat]
  omega

@[simp] theorem fieldNN_formatXI : fieldNN (formatXI m x nn) = nn := by
  apply BitVec.eq_of_toNat_eq
  have := nn.isLt
  rw [fieldNN_toNat, formatXI_toNat]
  omega

@[simp] theorem majorOf_formatX : majorOf (formatX m x nn) = m := majorOf_formatXI m x nn

@[simp] theorem fieldX_formatX : fieldX (formatX m x nn) = x := fieldX_formatXI m x nn

@[simp] theorem fieldNN_formatX : fieldNN (formatX m x nn) = nn := fieldNN_formatXI m x nn

@[simp] theorem majorOf_formatXY : majorOf (formatXY m x y n) = m := by
  apply BitVec.eq_of_toNat_eq
  have := n.isLt
  have := x.isLt
  have := y.isLt
  rw [majorOf_toNat, formatXY_toNat]
  omega

@[simp] theorem fieldX_formatXY : fieldX (formatXY m x y n) = x := by
  apply Fin.ext
  have := n.isLt
  have := x.isLt
  have := y.isLt
  rw [fieldX_val, formatXY_toNat]
  omega

@[simp] theorem fieldY_formatXY : fieldY (formatXY m x y n) = y := by
  apply Fin.ext
  have := n.isLt
  have := y.isLt
  rw [fieldY_val, formatXY_toNat]
  omega

@[simp] theorem fieldN_formatXY : fieldN (formatXY m x y n) = n := by
  apply BitVec.eq_of_toNat_eq
  have := n.isLt
  rw [fieldN_toNat, formatXY_toNat]
  omega

end

/-! ### A word from its parts -/

/-- A word is its major opcode and NNN. -/
theorem formatA_of_fields (op : Word) : formatA (majorOf op) (fieldNNN op) = op := by
  apply BitVec.eq_of_toNat_eq
  rw [formatA_toNat, majorOf_toNat, fieldNNN_toNat]
  omega

/-- A word is its major opcode, X and NN. -/
theorem formatXI_of_fields (op : Word) : formatXI (majorOf op) (fieldX op) (fieldNN op) = op := by
  apply BitVec.eq_of_toNat_eq
  rw [formatXI_toNat, majorOf_toNat, fieldX_val, fieldNN_toNat]
  omega

/-- A word is its major opcode, X, Y and N. -/
theorem formatXY_of_fields (op : Word) : formatXY (majorOf op) (fieldX op) (fieldY op) (fieldN op) = op := by
  apply BitVec.eq_of_toNat_eq
  rw [formatXY_toNat, majorOf_toNat, fieldX_val, fieldY_val, fieldN_toNat]
  omega

/-! ### Bytes -/

theorem wordOfBytes_toNat (hi lo : Byte) : (wordOfBytes hi lo).toNat = 256 * hi.toNat + lo.toNat := by
  rw [wordOfBytes, append_toNat]
  omega

theorem highByte_toNat (op : Word) : (highByte op).toNat = op.toNat / 256 := by
  have := op.isLt
  simp only [highByte, BitVec.extractLsb_toNat, Nat.shiftRight_eq_div_pow]
  omega

theorem lowByte_toNat (op : Word) : (lowByte op).toNat = op.toNat % 256 := by
  simp only [lowByte, BitVec.extractLsb_toNat, Nat.shiftRight_eq_div_pow]
  omega

@[simp] theorem wordOfBytes_of_bytes (op : Word) : wordOfBytes (highByte op) (lowByte op) = op := by
  apply BitVec.eq_of_toNat_eq
  rw [wordOfBytes_toNat, highByte_toNat, lowByte_toNat]
  omega

/-- The decoder on the two bytes of a word is the decision on the word. -/
theorem decode_of_word (op : Word) (rest : List Byte) :
    decode (highByte op :: lowByte op :: rest) =
      match decodeWord op with
      | .ok i => .ok (i, rest)
      | .error e => .error e :=
  congrArg (fun w => match decodeWord w with
    | .ok i => Except.ok (i, rest)
    | .error e => Except.error e) (wordOfBytes_of_bytes op)

end Sys2Proof
end

