-- ==== Sys2Proof/Laws/State.lean ====
section
/-! SUPPORT. One lemma per field per update of the state, and per reader per update it does not touch: no later proof
unfolds a record update. -/

namespace Sys2Proof.Machine

/-! ### setReg -/

section
variable (s : State) (x : Reg) (b : Byte)

@[simp] theorem State.setReg_config : (s.setReg x b).config = s.config := rfl
@[simp] theorem State.setReg_v : (s.setReg x b).v = s.v.set x.val b := rfl
@[simp] theorem State.setReg_i : (s.setReg x b).i = s.i := rfl
@[simp] theorem State.setReg_pc : (s.setReg x b).pc = s.pc := rfl
@[simp] theorem State.setReg_sp : (s.setReg x b).sp = s.sp := rfl
@[simp] theorem State.setReg_stk : (s.setReg x b).stk = s.stk := rfl
@[simp] theorem State.setReg_dt : (s.setReg x b).dt = s.dt := rfl
@[simp] theorem State.setReg_st : (s.setReg x b).st = s.st := rfl
@[simp] theorem State.setReg_wait : (s.setReg x b).wait = s.wait := rfl
@[simp] theorem State.setReg_fault : (s.setReg x b).fault = s.fault := rfl
@[simp] theorem State.setReg_mem : (s.setReg x b).mem = s.mem := rfl
@[simp] theorem State.setReg_fb : (s.setReg x b).fb = s.fb := rfl
@[simp] theorem State.setReg_key : (s.setReg x b).key = s.key := rfl
@[simp] theorem State.setReg_klatch : (s.setReg x b).klatch = s.klatch := rfl
@[simp] theorem State.setReg_draws : (s.setReg x b).draws = s.draws := rfl
@[simp] theorem State.setReg_inputs : (s.setReg x b).inputs = s.inputs := rfl
@[simp] theorem State.setReg_slot (j : Fin stackDepth) : (s.setReg x b).slot j = s.slot j := rfl
@[simp] theorem State.setReg_keyDown (j : Reg) : (s.setReg x b).keyDown j = s.keyDown j := rfl
@[simp] theorem State.setReg_latched (j : Reg) : (s.setReg x b).latched j = s.latched j := rfl
@[simp] theorem State.setReg_byte (j : Nat) : (s.setReg x b).byte j = s.byte j := rfl
@[simp] theorem State.setReg_npc : (s.setReg x b).npc = s.npc := rfl

end

/-! ### setRegs -/

section
variable (s : State) (v : Vector Byte 16)

@[simp] theorem State.setRegs_config : (s.setRegs v).config = s.config := rfl
@[simp] theorem State.setRegs_v : (s.setRegs v).v = v := rfl
@[simp] theorem State.setRegs_i : (s.setRegs v).i = s.i := rfl
@[simp] theorem State.setRegs_pc : (s.setRegs v).pc = s.pc := rfl
@[simp] theorem State.setRegs_sp : (s.setRegs v).sp = s.sp := rfl
@[simp] theorem State.setRegs_stk : (s.setRegs v).stk = s.stk := rfl
@[simp] theorem State.setRegs_dt : (s.setRegs v).dt = s.dt := rfl
@[simp] theorem State.setRegs_st : (s.setRegs v).st = s.st := rfl
@[simp] theorem State.setRegs_wait : (s.setRegs v).wait = s.wait := rfl
@[simp] theorem State.setRegs_fault : (s.setRegs v).fault = s.fault := rfl
@[simp] theorem State.setRegs_mem : (s.setRegs v).mem = s.mem := rfl
@[simp] theorem State.setRegs_fb : (s.setRegs v).fb = s.fb := rfl
@[simp] theorem State.setRegs_key : (s.setRegs v).key = s.key := rfl
@[simp] theorem State.setRegs_klatch : (s.setRegs v).klatch = s.klatch := rfl
@[simp] theorem State.setRegs_draws : (s.setRegs v).draws = s.draws := rfl
@[simp] theorem State.setRegs_inputs : (s.setRegs v).inputs = s.inputs := rfl
@[simp] theorem State.setRegs_slot (j : Fin stackDepth) : (s.setRegs v).slot j = s.slot j := rfl
@[simp] theorem State.setRegs_keyDown (j : Reg) : (s.setRegs v).keyDown j = s.keyDown j := rfl
@[simp] theorem State.setRegs_latched (j : Reg) : (s.setRegs v).latched j = s.latched j := rfl
@[simp] theorem State.setRegs_byte (j : Nat) : (s.setRegs v).byte j = s.byte j := rfl
@[simp] theorem State.setRegs_npc : (s.setRegs v).npc = s.npc := rfl

end

/-! ### setI -/

section
variable (s : State) (w : Word)

@[simp] theorem State.setI_config : (s.setI w).config = s.config := rfl
@[simp] theorem State.setI_v : (s.setI w).v = s.v := rfl
@[simp] theorem State.setI_i : (s.setI w).i = w := rfl
@[simp] theorem State.setI_pc : (s.setI w).pc = s.pc := rfl
@[simp] theorem State.setI_sp : (s.setI w).sp = s.sp := rfl
@[simp] theorem State.setI_stk : (s.setI w).stk = s.stk := rfl
@[simp] theorem State.setI_dt : (s.setI w).dt = s.dt := rfl
@[simp] theorem State.setI_st : (s.setI w).st = s.st := rfl
@[simp] theorem State.setI_wait : (s.setI w).wait = s.wait := rfl
@[simp] theorem State.setI_fault : (s.setI w).fault = s.fault := rfl
@[simp] theorem State.setI_mem : (s.setI w).mem = s.mem := rfl
@[simp] theorem State.setI_fb : (s.setI w).fb = s.fb := rfl
@[simp] theorem State.setI_key : (s.setI w).key = s.key := rfl
@[simp] theorem State.setI_klatch : (s.setI w).klatch = s.klatch := rfl
@[simp] theorem State.setI_draws : (s.setI w).draws = s.draws := rfl
@[simp] theorem State.setI_inputs : (s.setI w).inputs = s.inputs := rfl
@[simp] theorem State.setI_reg (r : Reg) : (s.setI w).reg r = s.reg r := rfl
@[simp] theorem State.setI_slot (j : Fin stackDepth) : (s.setI w).slot j = s.slot j := rfl
@[simp] theorem State.setI_keyDown (j : Reg) : (s.setI w).keyDown j = s.keyDown j := rfl
@[simp] theorem State.setI_latched (j : Reg) : (s.setI w).latched j = s.latched j := rfl
@[simp] theorem State.setI_byte (j : Nat) : (s.setI w).byte j = s.byte j := rfl
@[simp] theorem State.setI_npc : (s.setI w).npc = s.npc := rfl

end

/-! ### setPc -/

section
variable (s : State) (w : Word)

@[simp] theorem State.setPc_config : (s.setPc w).config = s.config := rfl
@[simp] theorem State.setPc_v : (s.setPc w).v = s.v := rfl
@[simp] theorem State.setPc_i : (s.setPc w).i = s.i := rfl
@[simp] theorem State.setPc_pc : (s.setPc w).pc = w := rfl
@[simp] theorem State.setPc_sp : (s.setPc w).sp = s.sp := rfl
@[simp] theorem State.setPc_stk : (s.setPc w).stk = s.stk := rfl
@[simp] theorem State.setPc_dt : (s.setPc w).dt = s.dt := rfl
@[simp] theorem State.setPc_st : (s.setPc w).st = s.st := rfl
@[simp] theorem State.setPc_wait : (s.setPc w).wait = s.wait := rfl
@[simp] theorem State.setPc_fault : (s.setPc w).fault = s.fault := rfl
@[simp] theorem State.setPc_mem : (s.setPc w).mem = s.mem := rfl
@[simp] theorem State.setPc_fb : (s.setPc w).fb = s.fb := rfl
@[simp] theorem State.setPc_key : (s.setPc w).key = s.key := rfl
@[simp] theorem State.setPc_klatch : (s.setPc w).klatch = s.klatch := rfl
@[simp] theorem State.setPc_draws : (s.setPc w).draws = s.draws := rfl
@[simp] theorem State.setPc_inputs : (s.setPc w).inputs = s.inputs := rfl
@[simp] theorem State.setPc_reg (r : Reg) : (s.setPc w).reg r = s.reg r := rfl
@[simp] theorem State.setPc_slot (j : Fin stackDepth) : (s.setPc w).slot j = s.slot j := rfl
@[simp] theorem State.setPc_keyDown (j : Reg) : (s.setPc w).keyDown j = s.keyDown j := rfl
@[simp] theorem State.setPc_latched (j : Reg) : (s.setPc w).latched j = s.latched j := rfl
@[simp] theorem State.setPc_byte (j : Nat) : (s.setPc w).byte j = s.byte j := rfl

end

/-! ### setSp -/

section
variable (s : State) (b : Byte)

@[simp] theorem State.setSp_config : (s.setSp b).config = s.config := rfl
@[simp] theorem State.setSp_v : (s.setSp b).v = s.v := rfl
@[simp] theorem State.setSp_i : (s.setSp b).i = s.i := rfl
@[simp] theorem State.setSp_pc : (s.setSp b).pc = s.pc := rfl
@[simp] theorem State.setSp_sp : (s.setSp b).sp = b := rfl
@[simp] theorem State.setSp_stk : (s.setSp b).stk = s.stk := rfl
@[simp] theorem State.setSp_dt : (s.setSp b).dt = s.dt := rfl
@[simp] theorem State.setSp_st : (s.setSp b).st = s.st := rfl
@[simp] theorem State.setSp_wait : (s.setSp b).wait = s.wait := rfl
@[simp] theorem State.setSp_fault : (s.setSp b).fault = s.fault := rfl
@[simp] theorem State.setSp_mem : (s.setSp b).mem = s.mem := rfl
@[simp] theorem State.setSp_fb : (s.setSp b).fb = s.fb := rfl
@[simp] theorem State.setSp_key : (s.setSp b).key = s.key := rfl
@[simp] theorem State.setSp_klatch : (s.setSp b).klatch = s.klatch := rfl
@[simp] theorem State.setSp_draws : (s.setSp b).draws = s.draws := rfl
@[simp] theorem State.setSp_inputs : (s.setSp b).inputs = s.inputs := rfl
@[simp] theorem State.setSp_reg (r : Reg) : (s.setSp b).reg r = s.reg r := rfl
@[simp] theorem State.setSp_slot (j : Fin stackDepth) : (s.setSp b).slot j = s.slot j := rfl
@[simp] theorem State.setSp_keyDown (j : Reg) : (s.setSp b).keyDown j = s.keyDown j := rfl
@[simp] theorem State.setSp_latched (j : Reg) : (s.setSp b).latched j = s.latched j := rfl
@[simp] theorem State.setSp_byte (j : Nat) : (s.setSp b).byte j = s.byte j := rfl
@[simp] theorem State.setSp_npc : (s.setSp b).npc = s.npc := rfl

end

/-! ### setSlot -/

section
variable (s : State) (k : Fin stackDepth) (w : Word)

@[simp] theorem State.setSlot_config : (s.setSlot k w).config = s.config := rfl
@[simp] theorem State.setSlot_v : (s.setSlot k w).v = s.v := rfl
@[simp] theorem State.setSlot_i : (s.setSlot k w).i = s.i := rfl
@[simp] theorem State.setSlot_pc : (s.setSlot k w).pc = s.pc := rfl
@[simp] theorem State.setSlot_sp : (s.setSlot k w).sp = s.sp := rfl
@[simp] theorem State.setSlot_stk : (s.setSlot k w).stk = s.stk.set k.val w := rfl
@[simp] theorem State.setSlot_dt : (s.setSlot k w).dt = s.dt := rfl
@[simp] theorem State.setSlot_st : (s.setSlot k w).st = s.st := rfl
@[simp] theorem State.setSlot_wait : (s.setSlot k w).wait = s.wait := rfl
@[simp] theorem State.setSlot_fault : (s.setSlot k w).fault = s.fault := rfl
@[simp] theorem State.setSlot_mem : (s.setSlot k w).mem = s.mem := rfl
@[simp] theorem State.setSlot_fb : (s.setSlot k w).fb = s.fb := rfl
@[simp] theorem State.setSlot_key : (s.setSlot k w).key = s.key := rfl
@[simp] theorem State.setSlot_klatch : (s.setSlot k w).klatch = s.klatch := rfl
@[simp] theorem State.setSlot_draws : (s.setSlot k w).draws = s.draws := rfl
@[simp] theorem State.setSlot_inputs : (s.setSlot k w).inputs = s.inputs := rfl
@[simp] theorem State.setSlot_reg (r : Reg) : (s.setSlot k w).reg r = s.reg r := rfl
@[simp] theorem State.setSlot_keyDown (j : Reg) : (s.setSlot k w).keyDown j = s.keyDown j := rfl
@[simp] theorem State.setSlot_latched (j : Reg) : (s.setSlot k w).latched j = s.latched j := rfl
@[simp] theorem State.setSlot_byte (j : Nat) : (s.setSlot k w).byte j = s.byte j := rfl
@[simp] theorem State.setSlot_npc : (s.setSlot k w).npc = s.npc := rfl

end

/-! ### setDt -/

section
variable (s : State) (b : Byte)

@[simp] theorem State.setDt_config : (s.setDt b).config = s.config := rfl
@[simp] theorem State.setDt_v : (s.setDt b).v = s.v := rfl
@[simp] theorem State.setDt_i : (s.setDt b).i = s.i := rfl
@[simp] theorem State.setDt_pc : (s.setDt b).pc = s.pc := rfl
@[simp] theorem State.setDt_sp : (s.setDt b).sp = s.sp := rfl
@[simp] theorem State.setDt_stk : (s.setDt b).stk = s.stk := rfl
@[simp] theorem State.setDt_dt : (s.setDt b).dt = b := rfl
@[simp] theorem State.setDt_st : (s.setDt b).st = s.st := rfl
@[simp] theorem State.setDt_wait : (s.setDt b).wait = s.wait := rfl
@[simp] theorem State.setDt_fault : (s.setDt b).fault = s.fault := rfl
@[simp] theorem State.setDt_mem : (s.setDt b).mem = s.mem := rfl
@[simp] theorem State.setDt_fb : (s.setDt b).fb = s.fb := rfl
@[simp] theorem State.setDt_key : (s.setDt b).key = s.key := rfl
@[simp] theorem State.setDt_klatch : (s.setDt b).klatch = s.klatch := rfl
@[simp] theorem State.setDt_draws : (s.setDt b).draws = s.draws := rfl
@[simp] theorem State.setDt_inputs : (s.setDt b).inputs = s.inputs := rfl
@[simp] theorem State.setDt_reg (r : Reg) : (s.setDt b).reg r = s.reg r := rfl
@[simp] theorem State.setDt_slot (j : Fin stackDepth) : (s.setDt b).slot j = s.slot j := rfl
@[simp] theorem State.setDt_keyDown (j : Reg) : (s.setDt b).keyDown j = s.keyDown j := rfl
@[simp] theorem State.setDt_latched (j : Reg) : (s.setDt b).latched j = s.latched j := rfl
@[simp] theorem State.setDt_byte (j : Nat) : (s.setDt b).byte j = s.byte j := rfl
@[simp] theorem State.setDt_npc : (s.setDt b).npc = s.npc := rfl

end

/-! ### setSt -/

section
variable (s : State) (b : Byte)

@[simp] theorem State.setSt_config : (s.setSt b).config = s.config := rfl
@[simp] theorem State.setSt_v : (s.setSt b).v = s.v := rfl
@[simp] theorem State.setSt_i : (s.setSt b).i = s.i := rfl
@[simp] theorem State.setSt_pc : (s.setSt b).pc = s.pc := rfl
@[simp] theorem State.setSt_sp : (s.setSt b).sp = s.sp := rfl
@[simp] theorem State.setSt_stk : (s.setSt b).stk = s.stk := rfl
@[simp] theorem State.setSt_dt : (s.setSt b).dt = s.dt := rfl
@[simp] theorem State.setSt_st : (s.setSt b).st = b := rfl
@[simp] theorem State.setSt_wait : (s.setSt b).wait = s.wait := rfl
@[simp] theorem State.setSt_fault : (s.setSt b).fault = s.fault := rfl
@[simp] theorem State.setSt_mem : (s.setSt b).mem = s.mem := rfl
@[simp] theorem State.setSt_fb : (s.setSt b).fb = s.fb := rfl
@[simp] theorem State.setSt_key : (s.setSt b).key = s.key := rfl
@[simp] theorem State.setSt_klatch : (s.setSt b).klatch = s.klatch := rfl
@[simp] theorem State.setSt_draws : (s.setSt b).draws = s.draws := rfl
@[simp] theorem State.setSt_inputs : (s.setSt b).inputs = s.inputs := rfl
@[simp] theorem State.setSt_reg (r : Reg) : (s.setSt b).reg r = s.reg r := rfl
@[simp] theorem State.setSt_slot (j : Fin stackDepth) : (s.setSt b).slot j = s.slot j := rfl
@[simp] theorem State.setSt_keyDown (j : Reg) : (s.setSt b).keyDown j = s.keyDown j := rfl
@[simp] theorem State.setSt_latched (j : Reg) : (s.setSt b).latched j = s.latched j := rfl
@[simp] theorem State.setSt_byte (j : Nat) : (s.setSt b).byte j = s.byte j := rfl
@[simp] theorem State.setSt_npc : (s.setSt b).npc = s.npc := rfl

end

/-! ### setWait -/

section
variable (s : State) (w : Wait)

@[simp] theorem State.setWait_config : (s.setWait w).config = s.config := rfl
@[simp] theorem State.setWait_v : (s.setWait w).v = s.v := rfl
@[simp] theorem State.setWait_i : (s.setWait w).i = s.i := rfl
@[simp] theorem State.setWait_pc : (s.setWait w).pc = s.pc := rfl
@[simp] theorem State.setWait_sp : (s.setWait w).sp = s.sp := rfl
@[simp] theorem State.setWait_stk : (s.setWait w).stk = s.stk := rfl
@[simp] theorem State.setWait_dt : (s.setWait w).dt = s.dt := rfl
@[simp] theorem State.setWait_st : (s.setWait w).st = s.st := rfl
@[simp] theorem State.setWait_wait : (s.setWait w).wait = w := rfl
@[simp] theorem State.setWait_fault : (s.setWait w).fault = s.fault := rfl
@[simp] theorem State.setWait_mem : (s.setWait w).mem = s.mem := rfl
@[simp] theorem State.setWait_fb : (s.setWait w).fb = s.fb := rfl
@[simp] theorem State.setWait_key : (s.setWait w).key = s.key := rfl
@[simp] theorem State.setWait_klatch : (s.setWait w).klatch = s.klatch := rfl
@[simp] theorem State.setWait_draws : (s.setWait w).draws = s.draws := rfl
@[simp] theorem State.setWait_inputs : (s.setWait w).inputs = s.inputs := rfl
@[simp] theorem State.setWait_reg (r : Reg) : (s.setWait w).reg r = s.reg r := rfl
@[simp] theorem State.setWait_slot (j : Fin stackDepth) : (s.setWait w).slot j = s.slot j := rfl
@[simp] theorem State.setWait_keyDown (j : Reg) : (s.setWait w).keyDown j = s.keyDown j := rfl
@[simp] theorem State.setWait_latched (j : Reg) : (s.setWait w).latched j = s.latched j := rfl
@[simp] theorem State.setWait_byte (j : Nat) : (s.setWait w).byte j = s.byte j := rfl
@[simp] theorem State.setWait_npc : (s.setWait w).npc = s.npc := rfl

end

/-! ### setFault -/

section
variable (s : State) (f : Option FaultRecord)

@[simp] theorem State.setFault_config : (s.setFault f).config = s.config := rfl
@[simp] theorem State.setFault_v : (s.setFault f).v = s.v := rfl
@[simp] theorem State.setFault_i : (s.setFault f).i = s.i := rfl
@[simp] theorem State.setFault_pc : (s.setFault f).pc = s.pc := rfl
@[simp] theorem State.setFault_sp : (s.setFault f).sp = s.sp := rfl
@[simp] theorem State.setFault_stk : (s.setFault f).stk = s.stk := rfl
@[simp] theorem State.setFault_dt : (s.setFault f).dt = s.dt := rfl
@[simp] theorem State.setFault_st : (s.setFault f).st = s.st := rfl
@[simp] theorem State.setFault_wait : (s.setFault f).wait = s.wait := rfl
@[simp] theorem State.setFault_fault : (s.setFault f).fault = f := rfl
@[simp] theorem State.setFault_mem : (s.setFault f).mem = s.mem := rfl
@[simp] theorem State.setFault_fb : (s.setFault f).fb = s.fb := rfl
@[simp] theorem State.setFault_key : (s.setFault f).key = s.key := rfl
@[simp] theorem State.setFault_klatch : (s.setFault f).klatch = s.klatch := rfl
@[simp] theorem State.setFault_draws : (s.setFault f).draws = s.draws := rfl
@[simp] theorem State.setFault_inputs : (s.setFault f).inputs = s.inputs := rfl
@[simp] theorem State.setFault_reg (r : Reg) : (s.setFault f).reg r = s.reg r := rfl
@[simp] theorem State.setFault_slot (j : Fin stackDepth) : (s.setFault f).slot j = s.slot j := rfl
@[simp] theorem State.setFault_keyDown (j : Reg) : (s.setFault f).keyDown j = s.keyDown j := rfl
@[simp] theorem State.setFault_latched (j : Reg) : (s.setFault f).latched j = s.latched j := rfl
@[simp] theorem State.setFault_byte (j : Nat) : (s.setFault f).byte j = s.byte j := rfl
@[simp] theorem State.setFault_npc : (s.setFault f).npc = s.npc := rfl

end

/-! ### setMem -/

section
variable (s : State) (m : Memory)

@[simp] theorem State.setMem_config : (s.setMem m).config = s.config := rfl
@[simp] theorem State.setMem_v : (s.setMem m).v = s.v := rfl
@[simp] theorem State.setMem_i : (s.setMem m).i = s.i := rfl
@[simp] theorem State.setMem_pc : (s.setMem m).pc = s.pc := rfl
@[simp] theorem State.setMem_sp : (s.setMem m).sp = s.sp := rfl
@[simp] theorem State.setMem_stk : (s.setMem m).stk = s.stk := rfl
@[simp] theorem State.setMem_dt : (s.setMem m).dt = s.dt := rfl
@[simp] theorem State.setMem_st : (s.setMem m).st = s.st := rfl
@[simp] theorem State.setMem_wait : (s.setMem m).wait = s.wait := rfl
@[simp] theorem State.setMem_fault : (s.setMem m).fault = s.fault := rfl
@[simp] theorem State.setMem_mem : (s.setMem m).mem = m := rfl
@[simp] theorem State.setMem_fb : (s.setMem m).fb = s.fb := rfl
@[simp] theorem State.setMem_key : (s.setMem m).key = s.key := rfl
@[simp] theorem State.setMem_klatch : (s.setMem m).klatch = s.klatch := rfl
@[simp] theorem State.setMem_draws : (s.setMem m).draws = s.draws := rfl
@[simp] theorem State.setMem_inputs : (s.setMem m).inputs = s.inputs := rfl
@[simp] theorem State.setMem_reg (r : Reg) : (s.setMem m).reg r = s.reg r := rfl
@[simp] theorem State.setMem_slot (j : Fin stackDepth) : (s.setMem m).slot j = s.slot j := rfl
@[simp] theorem State.setMem_keyDown (j : Reg) : (s.setMem m).keyDown j = s.keyDown j := rfl
@[simp] theorem State.setMem_latched (j : Reg) : (s.setMem m).latched j = s.latched j := rfl
@[simp] theorem State.setMem_npc : (s.setMem m).npc = s.npc := rfl

end

/-! ### setFb -/

section
variable (s : State) (f : Framebuffer)

@[simp] theorem State.setFb_config : (s.setFb f).config = s.config := rfl
@[simp] theorem State.setFb_v : (s.setFb f).v = s.v := rfl
@[simp] theorem State.setFb_i : (s.setFb f).i = s.i := rfl
@[simp] theorem State.setFb_pc : (s.setFb f).pc = s.pc := rfl
@[simp] theorem State.setFb_sp : (s.setFb f).sp = s.sp := rfl
@[simp] theorem State.setFb_stk : (s.setFb f).stk = s.stk := rfl
@[simp] theorem State.setFb_dt : (s.setFb f).dt = s.dt := rfl
@[simp] theorem State.setFb_st : (s.setFb f).st = s.st := rfl
@[simp] theorem State.setFb_wait : (s.setFb f).wait = s.wait := rfl
@[simp] theorem State.setFb_fault : (s.setFb f).fault = s.fault := rfl
@[simp] theorem State.setFb_mem : (s.setFb f).mem = s.mem := rfl
@[simp] theorem State.setFb_fb : (s.setFb f).fb = f := rfl
@[simp] theorem State.setFb_key : (s.setFb f).key = s.key := rfl
@[simp] theorem State.setFb_klatch : (s.setFb f).klatch = s.klatch := rfl
@[simp] theorem State.setFb_draws : (s.setFb f).draws = s.draws := rfl
@[simp] theorem State.setFb_inputs : (s.setFb f).inputs = s.inputs := rfl
@[simp] theorem State.setFb_reg (r : Reg) : (s.setFb f).reg r = s.reg r := rfl
@[simp] theorem State.setFb_slot (j : Fin stackDepth) : (s.setFb f).slot j = s.slot j := rfl
@[simp] theorem State.setFb_keyDown (j : Reg) : (s.setFb f).keyDown j = s.keyDown j := rfl
@[simp] theorem State.setFb_latched (j : Reg) : (s.setFb f).latched j = s.latched j := rfl
@[simp] theorem State.setFb_byte (j : Nat) : (s.setFb f).byte j = s.byte j := rfl
@[simp] theorem State.setFb_npc : (s.setFb f).npc = s.npc := rfl

end

/-! ### setKeys -/

section
variable (s : State) (k : BitVec 16)

@[simp] theorem State.setKeys_config : (s.setKeys k).config = s.config := rfl
@[simp] theorem State.setKeys_v : (s.setKeys k).v = s.v := rfl
@[simp] theorem State.setKeys_i : (s.setKeys k).i = s.i := rfl
@[simp] theorem State.setKeys_pc : (s.setKeys k).pc = s.pc := rfl
@[simp] theorem State.setKeys_sp : (s.setKeys k).sp = s.sp := rfl
@[simp] theorem State.setKeys_stk : (s.setKeys k).stk = s.stk := rfl
@[simp] theorem State.setKeys_dt : (s.setKeys k).dt = s.dt := rfl
@[simp] theorem State.setKeys_st : (s.setKeys k).st = s.st := rfl
@[simp] theorem State.setKeys_wait : (s.setKeys k).wait = s.wait := rfl
@[simp] theorem State.setKeys_fault : (s.setKeys k).fault = s.fault := rfl
@[simp] theorem State.setKeys_mem : (s.setKeys k).mem = s.mem := rfl
@[simp] theorem State.setKeys_fb : (s.setKeys k).fb = s.fb := rfl
@[simp] theorem State.setKeys_key : (s.setKeys k).key = k := rfl
@[simp] theorem State.setKeys_klatch : (s.setKeys k).klatch = s.klatch := rfl
@[simp] theorem State.setKeys_draws : (s.setKeys k).draws = s.draws := rfl
@[simp] theorem State.setKeys_inputs : (s.setKeys k).inputs = s.inputs := rfl
@[simp] theorem State.setKeys_reg (r : Reg) : (s.setKeys k).reg r = s.reg r := rfl
@[simp] theorem State.setKeys_slot (j : Fin stackDepth) : (s.setKeys k).slot j = s.slot j := rfl
@[simp] theorem State.setKeys_latched (j : Reg) : (s.setKeys k).latched j = s.latched j := rfl
@[simp] theorem State.setKeys_byte (j : Nat) : (s.setKeys k).byte j = s.byte j := rfl
@[simp] theorem State.setKeys_npc : (s.setKeys k).npc = s.npc := rfl

end

/-! ### setKlatch -/

section
variable (s : State) (k : BitVec 16)

@[simp] theorem State.setKlatch_config : (s.setKlatch k).config = s.config := rfl
@[simp] theorem State.setKlatch_v : (s.setKlatch k).v = s.v := rfl
@[simp] theorem State.setKlatch_i : (s.setKlatch k).i = s.i := rfl
@[simp] theorem State.setKlatch_pc : (s.setKlatch k).pc = s.pc := rfl
@[simp] theorem State.setKlatch_sp : (s.setKlatch k).sp = s.sp := rfl
@[simp] theorem State.setKlatch_stk : (s.setKlatch k).stk = s.stk := rfl
@[simp] theorem State.setKlatch_dt : (s.setKlatch k).dt = s.dt := rfl
@[simp] theorem State.setKlatch_st : (s.setKlatch k).st = s.st := rfl
@[simp] theorem State.setKlatch_wait : (s.setKlatch k).wait = s.wait := rfl
@[simp] theorem State.setKlatch_fault : (s.setKlatch k).fault = s.fault := rfl
@[simp] theorem State.setKlatch_mem : (s.setKlatch k).mem = s.mem := rfl
@[simp] theorem State.setKlatch_fb : (s.setKlatch k).fb = s.fb := rfl
@[simp] theorem State.setKlatch_key : (s.setKlatch k).key = s.key := rfl
@[simp] theorem State.setKlatch_klatch : (s.setKlatch k).klatch = k := rfl
@[simp] theorem State.setKlatch_draws : (s.setKlatch k).draws = s.draws := rfl
@[simp] theorem State.setKlatch_inputs : (s.setKlatch k).inputs = s.inputs := rfl
@[simp] theorem State.setKlatch_reg (r : Reg) : (s.setKlatch k).reg r = s.reg r := rfl
@[simp] theorem State.setKlatch_slot (j : Fin stackDepth) : (s.setKlatch k).slot j = s.slot j := rfl
@[simp] theorem State.setKlatch_keyDown (j : Reg) : (s.setKlatch k).keyDown j = s.keyDown j := rfl
@[simp] theorem State.setKlatch_byte (j : Nat) : (s.setKlatch k).byte j = s.byte j := rfl
@[simp] theorem State.setKlatch_npc : (s.setKlatch k).npc = s.npc := rfl

end

/-! ### setDraws -/

section
variable (s : State) (n : Nat)

@[simp] theorem State.setDraws_config : (s.setDraws n).config = s.config := rfl
@[simp] theorem State.setDraws_v : (s.setDraws n).v = s.v := rfl
@[simp] theorem State.setDraws_i : (s.setDraws n).i = s.i := rfl
@[simp] theorem State.setDraws_pc : (s.setDraws n).pc = s.pc := rfl
@[simp] theorem State.setDraws_sp : (s.setDraws n).sp = s.sp := rfl
@[simp] theorem State.setDraws_stk : (s.setDraws n).stk = s.stk := rfl
@[simp] theorem State.setDraws_dt : (s.setDraws n).dt = s.dt := rfl
@[simp] theorem State.setDraws_st : (s.setDraws n).st = s.st := rfl
@[simp] theorem State.setDraws_wait : (s.setDraws n).wait = s.wait := rfl
@[simp] theorem State.setDraws_fault : (s.setDraws n).fault = s.fault := rfl
@[simp] theorem State.setDraws_mem : (s.setDraws n).mem = s.mem := rfl
@[simp] theorem State.setDraws_fb : (s.setDraws n).fb = s.fb := rfl
@[simp] theorem State.setDraws_key : (s.setDraws n).key = s.key := rfl
@[simp] theorem State.setDraws_klatch : (s.setDraws n).klatch = s.klatch := rfl
@[simp] theorem State.setDraws_draws : (s.setDraws n).draws = n := rfl
@[simp] theorem State.setDraws_inputs : (s.setDraws n).inputs = s.inputs := rfl
@[simp] theorem State.setDraws_reg (r : Reg) : (s.setDraws n).reg r = s.reg r := rfl
@[simp] theorem State.setDraws_slot (j : Fin stackDepth) : (s.setDraws n).slot j = s.slot j := rfl
@[simp] theorem State.setDraws_keyDown (j : Reg) : (s.setDraws n).keyDown j = s.keyDown j := rfl
@[simp] theorem State.setDraws_latched (j : Reg) : (s.setDraws n).latched j = s.latched j := rfl
@[simp] theorem State.setDraws_byte (j : Nat) : (s.setDraws n).byte j = s.byte j := rfl
@[simp] theorem State.setDraws_npc : (s.setDraws n).npc = s.npc := rfl

end

/-! ### setInputs -/

section
variable (s : State) (es : List Event)

@[simp] theorem State.setInputs_config : (s.setInputs es).config = s.config := rfl
@[simp] theorem State.setInputs_v : (s.setInputs es).v = s.v := rfl
@[simp] theorem State.setInputs_i : (s.setInputs es).i = s.i := rfl
@[simp] theorem State.setInputs_pc : (s.setInputs es).pc = s.pc := rfl
@[simp] theorem State.setInputs_sp : (s.setInputs es).sp = s.sp := rfl
@[simp] theorem State.setInputs_stk : (s.setInputs es).stk = s.stk := rfl
@[simp] theorem State.setInputs_dt : (s.setInputs es).dt = s.dt := rfl
@[simp] theorem State.setInputs_st : (s.setInputs es).st = s.st := rfl
@[simp] theorem State.setInputs_wait : (s.setInputs es).wait = s.wait := rfl
@[simp] theorem State.setInputs_fault : (s.setInputs es).fault = s.fault := rfl
@[simp] theorem State.setInputs_mem : (s.setInputs es).mem = s.mem := rfl
@[simp] theorem State.setInputs_fb : (s.setInputs es).fb = s.fb := rfl
@[simp] theorem State.setInputs_key : (s.setInputs es).key = s.key := rfl
@[simp] theorem State.setInputs_klatch : (s.setInputs es).klatch = s.klatch := rfl
@[simp] theorem State.setInputs_draws : (s.setInputs es).draws = s.draws := rfl
@[simp] theorem State.setInputs_inputs : (s.setInputs es).inputs = es := rfl
@[simp] theorem State.setInputs_reg (r : Reg) : (s.setInputs es).reg r = s.reg r := rfl
@[simp] theorem State.setInputs_slot (j : Fin stackDepth) : (s.setInputs es).slot j = s.slot j := rfl
@[simp] theorem State.setInputs_keyDown (j : Reg) : (s.setInputs es).keyDown j = s.keyDown j := rfl
@[simp] theorem State.setInputs_latched (j : Reg) : (s.setInputs es).latched j = s.latched j := rfl
@[simp] theorem State.setInputs_byte (j : Nat) : (s.setInputs es).byte j = s.byte j := rfl
@[simp] theorem State.setInputs_npc : (s.setInputs es).npc = s.npc := rfl

end

/-! ### advance and raise: every field but PC, every field but FAULT -/

section
variable (s : State) (k : FaultKind) (op : Word)

@[simp] theorem State.advance_config : s.advance.config = s.config := rfl
@[simp] theorem State.advance_v : s.advance.v = s.v := rfl
@[simp] theorem State.advance_i : s.advance.i = s.i := rfl
@[simp] theorem State.advance_pc : s.advance.pc = s.npc := rfl
@[simp] theorem State.advance_sp : s.advance.sp = s.sp := rfl
@[simp] theorem State.advance_stk : s.advance.stk = s.stk := rfl
@[simp] theorem State.advance_dt : s.advance.dt = s.dt := rfl
@[simp] theorem State.advance_st : s.advance.st = s.st := rfl
@[simp] theorem State.advance_wait : s.advance.wait = s.wait := rfl
@[simp] theorem State.advance_fault : s.advance.fault = s.fault := rfl
@[simp] theorem State.advance_mem : s.advance.mem = s.mem := rfl
@[simp] theorem State.advance_fb : s.advance.fb = s.fb := rfl
@[simp] theorem State.advance_key : s.advance.key = s.key := rfl
@[simp] theorem State.advance_klatch : s.advance.klatch = s.klatch := rfl
@[simp] theorem State.advance_draws : s.advance.draws = s.draws := rfl
@[simp] theorem State.advance_inputs : s.advance.inputs = s.inputs := rfl
@[simp] theorem State.advance_reg (r : Reg) : s.advance.reg r = s.reg r := rfl
@[simp] theorem State.advance_slot (j : Fin stackDepth) : s.advance.slot j = s.slot j := rfl
@[simp] theorem State.advance_keyDown (j : Reg) : s.advance.keyDown j = s.keyDown j := rfl
@[simp] theorem State.advance_latched (j : Reg) : s.advance.latched j = s.latched j := rfl
@[simp] theorem State.advance_byte (j : Nat) : s.advance.byte j = s.byte j := rfl

@[simp] theorem raise_config : (raise k op s).config = s.config := rfl
@[simp] theorem raise_v : (raise k op s).v = s.v := rfl
@[simp] theorem raise_i : (raise k op s).i = s.i := rfl
@[simp] theorem raise_pc : (raise k op s).pc = s.pc := rfl
@[simp] theorem raise_sp : (raise k op s).sp = s.sp := rfl
@[simp] theorem raise_stk : (raise k op s).stk = s.stk := rfl
@[simp] theorem raise_dt : (raise k op s).dt = s.dt := rfl
@[simp] theorem raise_st : (raise k op s).st = s.st := rfl
@[simp] theorem raise_wait : (raise k op s).wait = s.wait := rfl
@[simp] theorem raise_fault : (raise k op s).fault = some { kind := k, opcode := op, pc := s.pc, depth := s.sp } := rfl
@[simp] theorem raise_mem : (raise k op s).mem = s.mem := rfl
@[simp] theorem raise_fb : (raise k op s).fb = s.fb := rfl
@[simp] theorem raise_key : (raise k op s).key = s.key := rfl
@[simp] theorem raise_klatch : (raise k op s).klatch = s.klatch := rfl
@[simp] theorem raise_draws : (raise k op s).draws = s.draws := rfl
@[simp] theorem raise_inputs : (raise k op s).inputs = s.inputs := rfl
@[simp] theorem raise_reg (r : Reg) : (raise k op s).reg r = s.reg r := rfl
@[simp] theorem raise_slot (j : Fin stackDepth) : (raise k op s).slot j = s.slot j := rfl
@[simp] theorem raise_keyDown (j : Reg) : (raise k op s).keyDown j = s.keyDown j := rfl
@[simp] theorem raise_latched (j : Reg) : (raise k op s).latched j = s.latched j := rfl
@[simp] theorem raise_byte (j : Nat) : (raise k op s).byte j = s.byte j := rfl

end

/-! ### The readers on the field they read -/

@[simp] theorem State.setReg_reg (s : State) (x r : Reg) (b : Byte) :
    (s.setReg x b).reg r = if r = x then b else s.reg r := by
  simp only [State.reg, State.setReg, Vector.getElem_set, Fin.val_inj, eq_comm]

@[simp] theorem State.setSlot_slot (s : State) (k j : Fin stackDepth) (w : Word) :
    (s.setSlot k w).slot j = if j = k then w else s.slot j := by
  simp only [State.slot, State.setSlot, Vector.getElem_set, Fin.val_inj, eq_comm]

theorem State.setRegs_reg (s : State) (v : Vector Byte 16) (r : Reg) : (s.setRegs v).reg r = v[r.val] := rfl

theorem State.setKeys_keyDown (s : State) (k : BitVec 16) (j : Reg) :
    (s.setKeys k).keyDown j = k.getLsbD j.val := rfl

@[simp] theorem State.setKlatch_key_latched (s : State) (j : Reg) : (s.setKlatch s.key).latched j = s.keyDown j := rfl

theorem State.setMem_byte (s : State) (m : Memory) (a : Nat) : (s.setMem m).byte a = m.read s.config a := rfl

end Sys2Proof.Machine
end

