-- ==== Sys2Proof/Laws/Memory.lean ====
section
/-! SUPPORT. The memory operations: what a read gives after a write, and the canonical form is kept. The read laws
hold of every list of cells, canonical or not. -/

namespace Sys2Proof.Machine

/-! ### find after put and drop -/

theorem Memory.find_put (m : Memory) (a b : Nat) (v : Byte) :
    (m.put a v).find b = if a = b then some v else m.find b := by
  induction m with
  | nil => simp [Memory.put, Memory.find]
  | cons p rest ih =>
    obtain ⟨k, w⟩ := p
    by_cases hk : a < k
    · simp [Memory.put, Memory.find, hk]
    · by_cases hak : a = k
      · subst hak
        simp only [Memory.put, hk, Memory.find, if_false, if_true]
        split <;> simp_all
      · simp only [Memory.put, hk, hak, Memory.find, ih, if_false]
        split
        · next h => subst h; simp [hak]
        · rfl

theorem Memory.find_drop (m : Memory) (a b : Nat) :
    (m.drop a).find b = if a = b then none else m.find b := by
  induction m with
  | nil => simp [Memory.drop, Memory.find]
  | cons p rest ih =>
    obtain ⟨k, w⟩ := p
    unfold Memory.drop at ih ⊢
    by_cases hk : k = a
    · subst hk
      simp only [List.filter, bne_self_eq_false, ih, Memory.find]
      split <;> rfl
    · simp only [List.filter, bne_iff_ne.mpr hk, Memory.find, ih]
      by_cases hb : k = b
      · subst hb
        simp [Ne.symm hk]
      · simp [hb]

/-- A read after a write: the value at the address written, what was there elsewhere. -/
@[simp] theorem Memory.read_write (c : Config) (m : Memory) (a b : Nat) (v : Byte) :
    (m.write c a v).read c b = if b = a then v else m.read c b := by
  unfold Memory.write Memory.read
  by_cases hv : v = resetByte c a
  · rw [if_pos hv, Memory.find_drop]
    by_cases hb : a = b
    · subst hb; simp [hv]
    · simp [hb, Ne.symm hb]
  · rw [if_neg hv, Memory.find_put]
    by_cases hb : a = b
    · subst hb; simp
    · simp [hb, Ne.symm hb]

@[simp] theorem Memory.read_nil (c : Config) (a : Nat) : Memory.read c [] a = resetByte c a := rfl

/-! ### The canonical form -/

theorem Memory.mem_put {m : Memory} {a : Nat} {v : Byte} {p : Host.Cell} (h : p ∈ m.put a v) :
    p = (a, v) ∨ p ∈ m := by
  induction m with
  | nil => simpa [Memory.put] using h
  | cons q rest ih =>
    obtain ⟨k, w⟩ := q
    unfold Memory.put at h
    split at h
    · simpa using h
    · split at h
      · rcases List.mem_cons.mp h with h | h
        · exact .inl h
        · exact .inr (List.mem_cons_of_mem _ h)
      · rcases List.mem_cons.mp h with h | h
        · exact .inr (h ▸ List.mem_cons_self ..)
        · exact (ih h).imp id (List.mem_cons_of_mem _)

theorem Memory.rising_put {m : Memory} (a : Nat) (v : Byte) (h : m.Pairwise (fun p q => p.1 < q.1)) :
    (m.put a v).Pairwise (fun p q => p.1 < q.1) := by
  induction m with
  | nil => simp [Memory.put]
  | cons q rest ih =>
    obtain ⟨k, w⟩ := q
    obtain ⟨hq, hr⟩ := List.pairwise_cons.mp h
    unfold Memory.put
    split
    · next hak =>
      refine List.pairwise_cons.mpr ⟨fun p hp => ?_, h⟩
      rcases List.mem_cons.mp hp with rfl | hp
      · exact hak
      · exact Nat.lt_trans hak (hq p hp)
    · split
      · next _ hak => subst hak; exact List.pairwise_cons.mpr ⟨fun p hp => hq p hp, hr⟩
      · next hlt hne =>
        refine List.pairwise_cons.mpr ⟨fun p hp => ?_, ih hr⟩
        rcases Memory.mem_put hp with rfl | hp
        · show k < a
          omega
        · exact hq p hp

/-- A write inside the space keeps the canonical form. -/
theorem Memory.wf_write {c : Config} {m : Memory} {a : Nat} (v : Byte) (ha : a < memSize) (h : m.wf c) :
    (m.write c a v).wf c := by
  obtain ⟨hr, hc⟩ := h
  unfold Memory.write
  split
  · exact ⟨hr.sublist List.filter_sublist, fun p hp => hc p (List.mem_of_mem_filter hp)⟩
  · next hv =>
    refine ⟨Memory.rising_put a v hr, fun p hp => ?_⟩
    rcases Memory.mem_put hp with rfl | hp
    · exact ⟨ha, hv⟩
    · exact hc p hp

/-- A write lists no address but the one written. -/
theorem Memory.mem_write {c : Config} {m : Memory} {a : Nat} {v : Byte} {p : Host.Cell} (h : p ∈ m.write c a v) :
    p.1 = a ∨ p ∈ m := by
  unfold Memory.write at h
  split at h
  · exact .inr (List.mem_of_mem_filter h)
  · exact (Memory.mem_put h).imp (congrArg Prod.fst) id

/-- In a rising memory every listed cell is the one found at its address. -/
theorem Memory.find_of_mem {m : Memory} (h : m.Pairwise (fun p q => p.1 < q.1)) {p : Host.Cell} (hp : p ∈ m) :
    m.find p.1 = some p.2 := by
  induction m with
  | nil => simp at hp
  | cons q rest ih =>
    obtain ⟨hq, hr⟩ := List.pairwise_cons.mp h
    rcases List.mem_cons.mp hp with rfl | hp
    · simp [Memory.find]
    · have : q.1 ≠ p.1 := Nat.ne_of_lt (hq p hp)
      simp [Memory.find, this, ih hr hp]

theorem Memory.mem_of_find {m : Memory} {a : Nat} {v : Byte} (h : m.find a = some v) : (a, v) ∈ m := by
  induction m with
  | nil => simp [Memory.find] at h
  | cons q rest ih =>
    obtain ⟨k, w⟩ := q
    unfold Memory.find at h
    split at h
    · next hk => subst hk; simp_all
    · exact List.mem_cons_of_mem _ (ih h)

/-! ### Several bytes -/

/-- What a store of several bytes leaves at each address. -/
theorem storeBytes_read (c : Config) (bs : List Byte) (m : Memory) (a b : Nat) :
    (storeBytes c m a bs).read c b =
      if a ≤ b then (bs[b - a]?).getD (m.read c b) else m.read c b := by
  induction bs generalizing m a with
  | nil => simp [storeBytes]
  | cons x xs ih =>
    rw [storeBytes, ih, Memory.read_write]
    rcases Nat.lt_trichotomy b a with h | rfl | h
    · simp [Nat.not_le.mpr h, Nat.not_le.mpr (Nat.lt_succ_of_lt h), Nat.ne_of_lt h]
    · simp
    · have h1 : a + 1 ≤ b := h
      have h2 : a ≤ b := Nat.le_of_lt h
      have h3 : b - a = (b - (a + 1)) + 1 := by omega
      simp [h1, h2, h3, Nat.ne_of_gt h]

/-- A store leaves every byte outside its range alone. -/
theorem storeBytes_read_outside {c : Config} {bs : List Byte} {m : Memory} {a b : Nat}
    (h : b < a ∨ a + bs.length ≤ b) : (storeBytes c m a bs).read c b = m.read c b := by
  rw [storeBytes_read]
  split
  · have : bs.length ≤ b - a := by omega
    simp [this]
  · rfl

/-- A store puts its `k`-th byte at `a + k`. -/
theorem storeBytes_read_inside {c : Config} {bs : List Byte} {m : Memory} {a k : Nat} (h : k < bs.length) :
    (storeBytes c m a bs).read c (a + k) = bs[k] := by
  rw [storeBytes_read]
  simp [h]

/-- A store inside the space keeps the canonical form. -/
theorem storeBytes_wf {c : Config} {bs : List Byte} {m : Memory} {a : Nat} (h : m.wf c)
    (ha : a + bs.length ≤ memSize) : (storeBytes c m a bs).wf c := by
  induction bs generalizing m a with
  | nil => exact h
  | cons x xs ih =>
    simp only [List.length_cons] at ha
    exact ih (Memory.wf_write x (by omega) h) (by omega)

/-- A store lists no address below the one it begins at. -/
theorem storeBytes_mem {c : Config} {bs : List Byte} {m : Memory} {a : Nat} {p : Host.Cell}
    (h : p ∈ storeBytes c m a bs) : a ≤ p.1 ∨ p ∈ m := by
  induction bs generalizing m a with
  | nil => exact .inr h
  | cons x xs ih =>
    rcases ih h with h | h
    · exact .inl (Nat.le_of_succ_le h)
    · exact (Memory.mem_write h).imp (fun e => Nat.le_of_eq e.symm) id

@[simp] theorem loadBytes_length (c : Config) (m : Memory) (a n : Nat) : (loadBytes c m a n).length = n := by
  induction n generalizing a with
  | zero => rfl
  | succ n ih => simp [loadBytes, ih]

/-- The `k`-th byte of a load is the byte at `a + k`. -/
@[simp] theorem loadBytes_getElem (c : Config) (m : Memory) (a n k : Nat) (h : k < (loadBytes c m a n).length) :
    (loadBytes c m a n)[k] = m.read c (a + k) := by
  induction n generalizing a k with
  | zero => simp [loadBytes] at h
  | succ n ih =>
    cases k with
    | zero => simp [loadBytes]
    | succ k =>
      simp only [loadBytes, List.getElem_cons_succ]
      rw [ih]
      congr 1
      omega

/-- The registers after a load: the bytes from `k` on, the others as they were. -/
theorem regsFrom_getElem (bs : List Byte) (v : Vector Byte 16) (k r : Nat) (hr : r < 16) :
    (regsFrom v k bs)[r] = if k ≤ r then (bs[r - k]?).getD v[r] else v[r] := by
  induction bs generalizing v k with
  | nil => simp [regsFrom]
  | cons b bs ih =>
    rw [regsFrom, ih]
    rcases Nat.lt_trichotomy r k with h | rfl | h
    · simp [Nat.not_le.mpr h, Nat.not_le.mpr (Nat.lt_succ_of_lt h), Nat.ne_of_gt h]
    · simp
    · have h1 : k + 1 ≤ r := h
      have h2 : k ≤ r := Nat.le_of_lt h
      have h3 : r - k = (r - (k + 1)) + 1 := by omega
      simp [h1, h2, h3, Nat.ne_of_lt h]

end Sys2Proof.Machine
end

