-- ==== Sys2Proof/Laws/Ops.lean ====
section
/-! SUPPORT. One lemma per shared operation, saying all it can do: the checks, the guard, the fetch, the cells of the
framebuffer, the keys. -/

namespace Sys2Proof.Machine

/-! ### Checks and guards -/

theorem checkRead_eq_none {a n : Nat} : checkRead a n = none ↔ n = 0 ∨ a + n ≤ memSize := by
  unfold checkRead
  split <;> simp <;> omega

theorem checkRead_eq_some {a n : Nat} {k : FaultKind} :
    checkRead a n = some k ↔ k = .memoryBoundsFault ∧ n ≠ 0 ∧ memSize < a + n := by
  unfold checkRead
  split
  · next h => simp [h, eq_comm]
  · next h => simp; omega

theorem checkWrite_eq_none {a n : Nat} :
    checkWrite a n = none ↔ n = 0 ∨ (progBase ≤ a ∧ a + n ≤ memSize) := by
  unfold checkWrite
  split
  · next h => simp; omega
  · split
    · next h => simp; omega
    · next h => simp; omega

/-- A guarded instruction answers a next state: the effect, or the state at the start with the latch set. -/
theorem guarded_cases (check : Option FaultKind) (op : Word) (s e : State) :
    (check = none ∧ guarded check op s e = .next e) ∨
      ∃ k, check = some k ∧ guarded check op s e = .next (raise k op s) := by
  cases check with
  | none => exact .inl ⟨rfl, rfl⟩
  | some k => exact .inr ⟨k, rfl, rfl⟩

@[simp] theorem guarded_none (op : Word) (s e : State) : guarded none op s e = .next e := rfl

@[simp] theorem guarded_some (k : FaultKind) (op : Word) (s e : State) :
    guarded (some k) op s e = .next (raise k op s) := rfl

/-! ### Single accesses and the fetch -/

theorem State.memRead_ok {s : State} {a : Nat} (h : a < memSize) : s.memRead a = .ok (s.byte a) := by
  simp [State.memRead, Nat.not_le.mpr h]

theorem State.memRead_error {s : State} {a : Nat} (h : memSize ≤ a) :
    s.memRead a = .error .memoryBoundsFault := by
  simp [State.memRead, h]

/-- The fetch gives the word at PC when both bytes exist, and the bounds fault otherwise. -/
theorem State.fetch_eq (s : State) :
    s.fetch = if s.pc.toNat + 1 < memSize then
      .ok (wordOfBytes (s.byte s.pc.toNat) (s.byte (s.pc.toNat + 1))) else .error .memoryBoundsFault := by
  unfold State.fetch
  by_cases h : s.pc.toNat + 1 < memSize
  · rw [State.memRead_ok h, State.memRead_ok (Nat.lt_of_succ_lt h), if_pos h]
  · rw [State.memRead_error (Nat.not_lt.mp h), if_neg h]
    by_cases h1 : s.pc.toNat < memSize
    · rw [State.memRead_ok h1]
    · rw [State.memRead_error (Nat.not_lt.mp h1)]

/-! ### The framebuffer -/

@[simp] theorem cell_blankFb (y x : Nat) : cell blankFb y x = false := by
  unfold cell blankFb
  split <;> simp

/-- A toggle flips its own cell and no other, inside the grid. -/
theorem cell_toggle (f : Framebuffer) (y x y' x' : Nat) (hy : y < fbHeight) (hx : x < fbWidth) :
    cell (toggle f y x) y' x' = (cell f y' x' ^^ decide (y' = y ∧ x' = x)) := by
  unfold cell toggle
  rw [dif_pos hy]
  by_cases hy' : y' < fbHeight
  · rw [dif_pos hy', dif_pos hy']
    by_cases h : y' = y
    · subst h
      have hx : x < 64 := hx
      by_cases hxx : x = x'
      · subst hxx
        simp [hx]
      · simp [hxx, Ne.symm hxx, BitVec.getLsbD_twoPow]
    · have : (f.set y (f[y] ^^^ BitVec.twoPow 64 x))[y'] = f[y'] := by
        rw [Vector.getElem_set_ne]
        exact Ne.symm h
      rw [this]
      simp [h]
  · have : y' ≠ y := by omega
    simp [hy', this]

/-- Where a pixel lands is inside the grid. -/
theorem landing_inside {edge : SpriteEdge} {y x y' x' : Nat} (h : landing edge y x = some (y', x')) :
    y' < fbHeight ∧ x' < fbWidth := by
  cases edge with
  | clip =>
    simp only [landing] at h
    split at h
    · next hb =>
      cases h
      exact hb
    · cases h
  | wrap =>
    simp only [landing, Option.some.injEq, Prod.mk.injEq] at h
    obtain ⟨rfl, rfl⟩ := h
    exact ⟨Nat.mod_lt _ (by decide), Nat.mod_lt _ (by decide)⟩

/-- Two framebuffers with the same cells are the same. -/
theorem Framebuffer.ext_cell {f g : Framebuffer} (h : ∀ y x, cell f y x = cell g y x) : f = g := by
  apply Vector.ext
  intro y hy
  apply BitVec.eq_of_getLsbD_eq
  intro x _
  have := h y x
  unfold cell at this
  rwa [dif_pos hy, dif_pos hy] at this

/-! ### The keys -/

/-- `set_key` changes its own key and no other. -/
theorem setKey_keyDown (k j : Reg) (p : Bool) (s : State) :
    (setKey k p s).keyDown j = if j = k then p else s.keyDown j := by
  unfold setKey
  rw [State.setKeys_keyDown]
  have hj := j.isLt
  cases p with
  | true =>
    simp only [if_true, BitVec.getLsbD_or, BitVec.getLsbD_twoPow, State.keyDown]
    by_cases h : j = k
    · subst h; simp [hj]
    · have : k.val ≠ j.val := fun e => h (Fin.ext e.symm)
      simp [h, this]
  | false =>
    simp only [Bool.false_eq_true, if_false, BitVec.getLsbD_and, BitVec.getLsbD_not, BitVec.getLsbD_twoPow,
      State.keyDown]
    by_cases h : j = k
    · subst h; simp
    · have : k.val ≠ j.val := fun e => h (Fin.ext e.symm)
      simp [h, this, hj]

theorem mem_allKeys (k : Reg) : k ∈ allKeys := by
  revert k
  decide

end Sys2Proof.Machine
end

