-- ==== Sys2Proof/Laws/Display.lean ====
section
/-! SUPPORT. The XOR compositor said once: which cells a sprite's 1 bits land on, that no two land on one cell, and what
drawing them leaves in every cell and in the collision flag. -/

namespace Sys2Proof.Machine

/-- Toggle the given cells one after the other, recording whether one was on. -/
def paint (ps : List (Nat × Nat)) (d : Canvas) : Canvas :=
  ps.foldl (fun d p => { fb := toggle d.fb p.1 p.2, coll := d.coll || cell d.fb p.1 p.2 }) d

/-- Where bit `7 − c` of the row byte `b` lands, if it is 1 and lands at all. -/
def litAt (edge : SpriteEdge) (y x0 : Nat) (b : Byte) (c : Nat) : Option (Nat × Nat) :=
  if b.getLsbD (7 - c) then landing edge y (x0 + c) else none

/-- The cells the 1 bits of a sprite land on, in the order in which they are drawn. -/
def litCells (edge : SpriteEdge) (y x0 : Nat) : List Byte → List (Nat × Nat)
  | [] => []
  | b :: bs => [0, 1, 2, 3, 4, 5, 6, 7].filterMap (litAt edge y x0 b) ++ litCells edge (y + 1) x0 bs

theorem paint_append (ps qs : List (Nat × Nat)) (d : Canvas) : paint (ps ++ qs) d = paint qs (paint ps d) :=
  List.foldl_append

theorem drawBit_eq_paint (edge : SpriteEdge) (y x0 c : Nat) (b : Byte) (d : Canvas) :
    drawBit edge y (x0 + c) (b.getLsbD (7 - c)) d = paint (litAt edge y x0 b c).toList d := by
  unfold drawBit litAt
  cases b.getLsbD (7 - c) <;> cases landing edge y (x0 + c) <;> rfl

theorem drawRow_eq_paint (edge : SpriteEdge) (y x0 : Nat) (b : Byte) (d : Canvas) :
    drawRow edge y x0 b d = paint ([0, 1, 2, 3, 4, 5, 6, 7].filterMap (litAt edge y x0 b)) d := by
  unfold drawRow
  generalize [0, 1, 2, 3, 4, 5, 6, 7] = cs
  induction cs generalizing d with
  | nil => rfl
  | cons c cs ih =>
    rw [List.foldl_cons, ih, drawBit_eq_paint, List.filterMap_cons]
    cases litAt edge y x0 b c <;> rfl

/-- Drawing a sprite toggles its lit cells in order. -/
theorem drawRows_eq_paint (edge : SpriteEdge) (y x0 : Nat) (bs : List Byte) (d : Canvas) :
    drawRows edge y x0 bs d = paint (litCells edge y x0 bs) d := by
  induction bs generalizing y d with
  | nil => rfl
  | cons b bs ih => rw [drawRows, ih, drawRow_eq_paint, litCells, paint_append]

/-- Painting distinct cells of the grid flips exactly them, and finds exactly the cells that were on. -/
theorem paint_spec {ps : List (Nat × Nat)} (d : Canvas) (hn : ps.Nodup)
    (hin : ∀ p ∈ ps, p.1 < fbHeight ∧ p.2 < fbWidth) :
    (∀ y x, cell (paint ps d).fb y x = (cell d.fb y x ^^ decide ((y, x) ∈ ps))) ∧
      ((paint ps d).coll = true ↔ d.coll = true ∨ ∃ p ∈ ps, cell d.fb p.1 p.2 = true) := by
  induction ps generalizing d with
  | nil => simp [paint]
  | cons p ps ih =>
    obtain ⟨hp, hn⟩ := List.nodup_cons.mp hn
    have hpin := hin p (by simp)
    have ht := fun y x => cell_toggle d.fb p.1 p.2 y x hpin.1 hpin.2
    obtain ⟨h1, h2⟩ := ih { fb := toggle d.fb p.1 p.2, coll := d.coll || cell d.fb p.1 p.2 } hn
      (fun q hq => hin q (List.mem_cons_of_mem _ hq))
    constructor
    · intro y x
      show cell (paint ps _).fb y x = _
      rw [h1, ht]
      by_cases hyx : (y, x) = p
      · subst hyx
        simp [hp]
      · have : ¬ (y = p.1 ∧ x = p.2) := fun h => hyx (Prod.ext h.1 h.2)
        simp [this, hyx]
    · show (paint ps _).coll = true ↔ _
      rw [h2]
      have hq : ∀ q ∈ ps, cell (toggle d.fb p.1 p.2) q.1 q.2 = cell d.fb q.1 q.2 := by
        intro q hq
        have : ¬ (q.1 = p.1 ∧ q.2 = p.2) := fun h => hp (Prod.ext h.1 h.2 ▸ hq)
        rw [ht]
        simp [this]
      constructor
      · rintro (h | ⟨q, hm, h⟩)
        · rcases (Bool.or_eq_true _ _).mp h with h | h
          · exact .inl h
          · exact .inr ⟨p, by simp, h⟩
        · exact .inr ⟨q, List.mem_cons_of_mem _ hm, hq q hm ▸ h⟩
      · rintro (h | ⟨q, hm, h⟩)
        · exact .inl (by simp [h])
        · rcases List.mem_cons.mp hm with rfl | hm
          · exact .inl (by simp [h])
          · exact .inr ⟨q, hm, (hq q hm).symm ▸ h⟩

/-- The lit cells: one for each 1 bit that lands. -/
theorem mem_litCells {edge : SpriteEdge} {y x0 : Nat} {bs : List Byte} {p : Nat × Nat} :
    p ∈ litCells edge y x0 bs ↔ ∃ (r : Nat) (h : r < bs.length) (c : Nat), c < 8 ∧
      bs[r].getLsbD (7 - c) = true ∧ landing edge (y + r) (x0 + c) = some p := by
  induction bs generalizing y with
  | nil => simp [litCells]
  | cons b bs ih =>
    rw [litCells, List.mem_append, ih, List.mem_filterMap]
    constructor
    · rintro (⟨c, hc, hl⟩ | ⟨r, h, c, hc, hb, hl⟩)
      · unfold litAt at hl
        split at hl
        · next hb => exact ⟨0, by simp, c, by simp at hc; omega, hb, hl⟩
        · cases hl
      · exact ⟨r + 1, by simpa using h, c, hc, hb, by rw [← hl]; congr 1; omega⟩
    · rintro ⟨r, h, c, hc, hb, hl⟩
      cases r with
      | zero =>
        refine .inl ⟨c, by simp; omega, ?_⟩
        unfold litAt
        exact (if_pos hb).trans hl
      | succ r => exact .inr ⟨r, by simpa using h, c, hc, hb, by rw [← hl]; congr 1; omega⟩

/-- Two pixels of a sprite less than 32 rows and 64 columns apart land on one cell only if they are one pixel. -/
theorem landing_inj {edge : SpriteEdge} {y x r r' c c' : Nat} {p : Nat × Nat} (hr : r < 32) (hr' : r' < 32)
    (hc : c < 8) (hc' : c' < 8) (h : landing edge (y + r) (x + c) = some p)
    (h' : landing edge (y + r') (x + c') = some p) : r = r' ∧ c = c' := by
  cases edge with
  | clip =>
    simp only [landing, Option.ite_none_right_eq_some] at h h'
    obtain ⟨-, h⟩ := h
    obtain ⟨-, h'⟩ := h'
    have := h.trans h'.symm
    simp at this
    omega
  | wrap =>
    have := h.trans h'.symm
    simp only [landing, fbHeight, fbWidth, Option.some.injEq, Prod.mk.injEq] at this
    omega

/-- No two 1 bits of a sprite land on one cell (at most 15 rows of 8 columns). -/
theorem litCells_nodup {edge : SpriteEdge} {y x0 : Nat} {bs : List Byte} (h : bs.length ≤ 15) :
    (litCells edge y x0 bs).Nodup := by
  induction bs generalizing y with
  | nil => simp [litCells]
  | cons b bs ih =>
    simp only [List.length_cons] at h
    rw [litCells, List.nodup_append]
    refine ⟨?_, ih (by omega), ?_⟩
    · rw [List.Nodup, List.pairwise_filterMap]
      refine List.Pairwise.imp_of_mem (R := fun a b => a < b) ?_ (by decide)
      intro c c' hc hc' hlt p hp q hq hpq
      subst hpq
      unfold litAt at hp hq
      split at hp <;> split at hq <;> try contradiction
      have := (landing_inj (r := 0) (r' := 0) (by omega) (by omega) (by simp at hc; omega) (by simp at hc'; omega)
        hp hq).2
      omega
    · intro p hp q hq hpq
      subst hpq
      obtain ⟨c, hc, hp⟩ := List.mem_filterMap.mp hp
      obtain ⟨r, hr, c', hc', -, hl⟩ := mem_litCells.mp hq
      unfold litAt at hp
      split at hp
      · rw [show y + 1 + r = y + (r + 1) by omega] at hl
        have := (landing_inj (r := 0) (r' := r + 1) (by omega) (by omega) (by simp at hc; omega) hc' hp hl).1
        omega
      · cases hp

theorem litCells_inside {edge : SpriteEdge} {y x0 : Nat} {bs : List Byte} {p : Nat × Nat}
    (h : p ∈ litCells edge y x0 bs) : p.1 < fbHeight ∧ p.2 < fbWidth := by
  obtain ⟨_, _, _, _, _, hl⟩ := mem_litCells.mp h
  exact landing_inside hl

/-- What DXYN's drawing leaves: its lit cells flipped, the others as they were, and the collision flag. -/
theorem State.drawn_spec (s : State) (x y : Reg) (n : Nibble) :
    let lit := litCells s.config.spriteEdge ((s.reg y).toNat % fbHeight) ((s.reg x).toNat % fbWidth) (s.spriteBytes n)
    (∀ row col, cell (s.drawn x y n).fb row col = (cell s.fb row col ^^ decide ((row, col) ∈ lit))) ∧
      ((s.drawn x y n).coll = true ↔ ∃ p ∈ lit, cell s.fb p.1 p.2 = true) := by
  intro lit
  have hn := n.isLt
  have h := paint_spec (ps := lit) { fb := s.fb, coll := false }
    (litCells_nodup (by simp [State.spriteBytes]; omega)) (fun p hp => litCells_inside hp)
  rw [← drawRows_eq_paint] at h
  simpa [State.drawn] using h

end Sys2Proof.Machine
end

