-- ==== Sys2Proof/Laws/PerInstr.lean ====
section
/-! SUPPORT. The family EncodingShape, one lemma per constructor: the instruction is well formed, and its word
matches its own row of the opcode map of 30_encoding.md R104. -/

namespace Sys2Proof

/-! ### The masks of the four formats -/

theorem formatA_mask (m : Nibble) (nnn : Addr) : formatA m nnn &&& 0xF000#16 = formatA m 0 := by
  refine (BitVec.and_append (x₁ := m) (x₂ := 0xF#4) (y₁ := nnn) (y₂ := 0#12)).trans ?_
  exact congrArg₂ (· ++ ·) BitVec.and_allOnes BitVec.and_zero

theorem formatXI_mask (m : Nibble) (x : Reg) (nn : Byte) : formatXI m x nn &&& 0xF000#16 = formatXI m 0 0 := by
  refine (BitVec.and_append (x₁ := m ++ regNibble x) (x₂ := 0xF#4 ++ 0#4) (y₁ := nn) (y₂ := 0#8)).trans ?_
  refine congrArg₂ (· ++ ·) ?_ BitVec.and_zero
  refine BitVec.and_append.trans ?_
  exact congrArg₂ (· ++ ·) BitVec.and_allOnes BitVec.and_zero

theorem formatX_mask (m : Nibble) (x : Reg) (nn : Byte) : formatX m x nn &&& 0xF0FF#16 = formatX m 0 nn := by
  refine (BitVec.and_append (x₁ := m ++ regNibble x) (x₂ := 0xF#4 ++ 0#4) (y₁ := nn) (y₂ := 0xFF#8)).trans ?_
  refine congrArg₂ (· ++ ·) ?_ BitVec.and_allOnes
  refine BitVec.and_append.trans ?_
  exact congrArg₂ (· ++ ·) BitVec.and_allOnes BitVec.and_zero

theorem formatXY_mask (m : Nibble) (x y : Reg) (n : Nibble) :
    formatXY m x y n &&& 0xF00F#16 = formatXY m 0 0 n := by
  refine (BitVec.and_append (x₁ := m ++ regNibble x ++ regNibble y) (x₂ := 0xF#4 ++ 0#4 ++ 0#4)
    (y₁ := n) (y₂ := 0xF#4)).trans ?_
  refine congrArg₂ (· ++ ·) ?_ BitVec.and_allOnes
  refine (BitVec.and_append (x₁ := m ++ regNibble x) (x₂ := 0xF#4 ++ 0#4)).trans ?_
  refine congrArg₂ (· ++ ·) ?_ BitVec.and_zero
  refine BitVec.and_append.trans ?_
  exact congrArg₂ (· ++ ·) BitVec.and_allOnes BitVec.and_zero

theorem formatXYN_mask (m : Nibble) (x y : Reg) (n : Nibble) :
    formatXY m x y n &&& 0xF000#16 = formatXY m 0 0 0 := by
  refine (BitVec.and_append (x₁ := m ++ regNibble x ++ regNibble y) (x₂ := 0xF#4 ++ 0#4 ++ 0#4)
    (y₁ := n) (y₂ := 0x0#4)).trans ?_
  refine congrArg₂ (· ++ ·) ?_ BitVec.and_zero
  refine (BitVec.and_append (x₁ := m ++ regNibble x) (x₂ := 0xF#4 ++ 0#4)).trans ?_
  refine congrArg₂ (· ++ ·) ?_ BitVec.and_zero
  refine BitVec.and_append.trans ?_
  exact congrArg₂ (· ++ ·) BitVec.and_allOnes BitVec.and_zero

/-! ### Well-formedness holds of every instruction, by the operand types -/

theorem Instr.wellFormed_of_types (i : Instr) : i.WellFormed := by
  cases i <;> simp [Instr.WellFormed, Instr.wellFormed, regOk, nOk, nnOk, nnnOk] <;> omega

end Sys2Proof

namespace Sys2Proof.Laws

/-- `i` is well formed and its word matches its row: `encode i & mask = match` (30_encoding.md R102, R104). -/
def EncodingShape.Statement (i : Instr) : Prop := i.WellFormed ∧ encode i &&& i.row.1 = i.row.2

theorem EncodingShape.cls : EncodingShape.Statement .cls :=
  ⟨rfl, rfl⟩
theorem EncodingShape.ret : EncodingShape.Statement .ret :=
  ⟨rfl, rfl⟩
theorem EncodingShape.jpNnn (nnn : Addr) : EncodingShape.Statement (.jpNnn nnn) :=
  ⟨Instr.wellFormed_of_types _, formatA_mask ..⟩
theorem EncodingShape.callNnn (nnn : Addr) : EncodingShape.Statement (.callNnn nnn) :=
  ⟨Instr.wellFormed_of_types _, formatA_mask ..⟩
theorem EncodingShape.seVxNn (x : Reg) (nn : Byte) : EncodingShape.Statement (.seVxNn x nn) :=
  ⟨Instr.wellFormed_of_types _, formatXI_mask ..⟩
theorem EncodingShape.sneVxNn (x : Reg) (nn : Byte) : EncodingShape.Statement (.sneVxNn x nn) :=
  ⟨Instr.wellFormed_of_types _, formatXI_mask ..⟩
theorem EncodingShape.seVxVy (x : Reg) (y : Reg) : EncodingShape.Statement (.seVxVy x y) :=
  ⟨Instr.wellFormed_of_types _, formatXY_mask ..⟩
theorem EncodingShape.ldVxNn (x : Reg) (nn : Byte) : EncodingShape.Statement (.ldVxNn x nn) :=
  ⟨Instr.wellFormed_of_types _, formatXI_mask ..⟩
theorem EncodingShape.addVxNn (x : Reg) (nn : Byte) : EncodingShape.Statement (.addVxNn x nn) :=
  ⟨Instr.wellFormed_of_types _, formatXI_mask ..⟩
theorem EncodingShape.ldVxVy (x : Reg) (y : Reg) : EncodingShape.Statement (.ldVxVy x y) :=
  ⟨Instr.wellFormed_of_types _, formatXY_mask ..⟩
theorem EncodingShape.orVxVy (x : Reg) (y : Reg) : EncodingShape.Statement (.orVxVy x y) :=
  ⟨Instr.wellFormed_of_types _, formatXY_mask ..⟩
theorem EncodingShape.andVxVy (x : Reg) (y : Reg) : EncodingShape.Statement (.andVxVy x y) :=
  ⟨Instr.wellFormed_of_types _, formatXY_mask ..⟩
theorem EncodingShape.xorVxVy (x : Reg) (y : Reg) : EncodingShape.Statement (.xorVxVy x y) :=
  ⟨Instr.wellFormed_of_types _, formatXY_mask ..⟩
theorem EncodingShape.addVxVy (x : Reg) (y : Reg) : EncodingShape.Statement (.addVxVy x y) :=
  ⟨Instr.wellFormed_of_types _, formatXY_mask ..⟩
theorem EncodingShape.subVxVy (x : Reg) (y : Reg) : EncodingShape.Statement (.subVxVy x y) :=
  ⟨Instr.wellFormed_of_types _, formatXY_mask ..⟩
theorem EncodingShape.shrVxVy (x : Reg) (y : Reg) : EncodingShape.Statement (.shrVxVy x y) :=
  ⟨Instr.wellFormed_of_types _, formatXY_mask ..⟩
theorem EncodingShape.subnVxVy (x : Reg) (y : Reg) : EncodingShape.Statement (.subnVxVy x y) :=
  ⟨Instr.wellFormed_of_types _, formatXY_mask ..⟩
theorem EncodingShape.shlVxVy (x : Reg) (y : Reg) : EncodingShape.Statement (.shlVxVy x y) :=
  ⟨Instr.wellFormed_of_types _, formatXY_mask ..⟩
theorem EncodingShape.sneVxVy (x : Reg) (y : Reg) : EncodingShape.Statement (.sneVxVy x y) :=
  ⟨Instr.wellFormed_of_types _, formatXY_mask ..⟩
theorem EncodingShape.ldINnn (nnn : Addr) : EncodingShape.Statement (.ldINnn nnn) :=
  ⟨Instr.wellFormed_of_types _, formatA_mask ..⟩
theorem EncodingShape.jpV0Nnn (nnn : Addr) : EncodingShape.Statement (.jpV0Nnn nnn) :=
  ⟨Instr.wellFormed_of_types _, formatA_mask ..⟩
theorem EncodingShape.rndVxNn (x : Reg) (nn : Byte) : EncodingShape.Statement (.rndVxNn x nn) :=
  ⟨Instr.wellFormed_of_types _, formatXI_mask ..⟩
theorem EncodingShape.drwVxVyN (x : Reg) (y : Reg) (n : Nibble) : EncodingShape.Statement (.drwVxVyN x y n) :=
  ⟨Instr.wellFormed_of_types _, formatXYN_mask ..⟩
theorem EncodingShape.skpVx (x : Reg) : EncodingShape.Statement (.skpVx x) :=
  ⟨Instr.wellFormed_of_types _, formatX_mask ..⟩
theorem EncodingShape.sknpVx (x : Reg) : EncodingShape.Statement (.sknpVx x) :=
  ⟨Instr.wellFormed_of_types _, formatX_mask ..⟩
theorem EncodingShape.ldVxDt (x : Reg) : EncodingShape.Statement (.ldVxDt x) :=
  ⟨Instr.wellFormed_of_types _, formatX_mask ..⟩
theorem EncodingShape.ldVxK (x : Reg) : EncodingShape.Statement (.ldVxK x) :=
  ⟨Instr.wellFormed_of_types _, formatX_mask ..⟩
theorem EncodingShape.ldDtVx (x : Reg) : EncodingShape.Statement (.ldDtVx x) :=
  ⟨Instr.wellFormed_of_types _, formatX_mask ..⟩
theorem EncodingShape.ldStVx (x : Reg) : EncodingShape.Statement (.ldStVx x) :=
  ⟨Instr.wellFormed_of_types _, formatX_mask ..⟩
theorem EncodingShape.addIVx (x : Reg) : EncodingShape.Statement (.addIVx x) :=
  ⟨Instr.wellFormed_of_types _, formatX_mask ..⟩
theorem EncodingShape.ldFVx (x : Reg) : EncodingShape.Statement (.ldFVx x) :=
  ⟨Instr.wellFormed_of_types _, formatX_mask ..⟩
theorem EncodingShape.ldBVx (x : Reg) : EncodingShape.Statement (.ldBVx x) :=
  ⟨Instr.wellFormed_of_types _, formatX_mask ..⟩
theorem EncodingShape.ldMemVx (x : Reg) : EncodingShape.Statement (.ldMemVx x) :=
  ⟨Instr.wellFormed_of_types _, formatX_mask ..⟩
theorem EncodingShape.ldVxMem (x : Reg) : EncodingShape.Statement (.ldVxMem x) :=
  ⟨Instr.wellFormed_of_types _, formatX_mask ..⟩

end Sys2Proof.Laws
end

