-- ==== Sys2Proof/Laws/Step.lean ====
section
/-! SUPPORT. The meanings as equations of `exec`, and what the core's `step()`, a poll, a tick and a machine step can
do, said once each. -/

namespace Sys2Proof.Machine

/-! ### exec, arm by arm -/

section
variable (s : State) (nnn : Addr) (x y : Reg) (nn : Byte) (n : Nibble)

@[simp] theorem exec_cls : exec .cls s = .next (s.setFb blankFb).advance := rfl
@[simp] theorem exec_jpNnn : exec (.jpNnn nnn) s = .next (s.setPc (target nnn)) := rfl
@[simp] theorem exec_jpV0Nnn : exec (.jpV0Nnn nnn) s = .next (s.setPc (s.targetV0 nnn)) := rfl
@[simp] theorem exec_seVxNn : exec (.seVxNn x nn) s = .next (skipIf (s.reg x == nn) s) := rfl
@[simp] theorem exec_sneVxNn : exec (.sneVxNn x nn) s = .next (skipIf (s.reg x != nn) s) := rfl
@[simp] theorem exec_seVxVy : exec (.seVxVy x y) s = .next (skipIf (s.reg x == s.reg y) s) := rfl
@[simp] theorem exec_sneVxVy : exec (.sneVxVy x y) s = .next (skipIf (s.reg x != s.reg y) s) := rfl
@[simp] theorem exec_ldVxNn : exec (.ldVxNn x nn) s = .next (s.setReg x nn).advance := rfl
@[simp] theorem exec_addVxNn : exec (.addVxNn x nn) s = .next (s.setReg x (s.reg x + nn)).advance := rfl
@[simp] theorem exec_ldVxVy : exec (.ldVxVy x y) s = .next (s.setReg x (s.reg y)).advance := rfl
@[simp] theorem exec_orVxVy : exec (.orVxVy x y) s = .next (s.setReg x (s.reg x ||| s.reg y)).advance := rfl
@[simp] theorem exec_andVxVy : exec (.andVxVy x y) s = .next (s.setReg x (s.reg x &&& s.reg y)).advance := rfl
@[simp] theorem exec_xorVxVy : exec (.xorVxVy x y) s = .next (s.setReg x (s.reg x ^^^ s.reg y)).advance := rfl
@[simp] theorem exec_addVxVy : exec (.addVxVy x y) s =
    .next (s.setResultFlag x (s.reg x + s.reg y) (carry (s.reg x) (s.reg y))).advance := rfl
@[simp] theorem exec_subVxVy : exec (.subVxVy x y) s =
    .next (s.setResultFlag x (s.reg x - s.reg y) (noBorrow (s.reg x) (s.reg y))).advance := rfl
@[simp] theorem exec_subnVxVy : exec (.subnVxVy x y) s =
    .next (s.setResultFlag x (s.reg y - s.reg x) (noBorrow (s.reg y) (s.reg x))).advance := rfl
@[simp] theorem exec_shrVxVy : exec (.shrVxVy x y) s =
    .next (s.setResultFlag x (s.shiftOperand x y >>> 1) (shiftedOutRight (s.shiftOperand x y))).advance := rfl
@[simp] theorem exec_shlVxVy : exec (.shlVxVy x y) s =
    .next (s.setResultFlag x (s.shiftOperand x y <<< 1) (shiftedOutLeft (s.shiftOperand x y))).advance := rfl
@[simp] theorem exec_ldINnn : exec (.ldINnn nnn) s = .next (s.setI (target nnn)).advance := rfl
@[simp] theorem exec_addIVx : exec (.addIVx x) s =
    .next ((s.setI (BitVec.ofNat 16 ((s.i.toNat + (s.reg x).toNat) % memSize))).setIndexFlag
      (indexOverflow s.i (s.reg x))).advance := rfl
@[simp] theorem exec_ldFVx : exec (.ldFVx x) s = .next (s.setI (glyphAddr (s.lowNibble x))).advance := rfl
@[simp] theorem exec_ldBVx : exec (.ldBVx x) s = storeAtI (encode (.ldBVx x)) (decimalDigits (s.reg x)) s := rfl
@[simp] theorem exec_ldMemVx : exec (.ldMemVx x) s = storeAtI (encode (.ldMemVx x)) (s.regsUpTo x) s := rfl
@[simp] theorem exec_ldVxMem : exec (.ldVxMem x) s =
    guarded (checkRead s.base (x.val + 1)) (encode (.ldVxMem x)) s
      (s.setRegs (regsFrom s.v 0 (loadBytes s.config s.mem s.base (x.val + 1)))).advance := rfl
@[simp] theorem exec_rndVxNn : exec (.rndVxNn x nn) s =
    .next ((s.setReg x (s.nextRandom &&& nn)).setDraws (s.draws + 1)).advance := rfl
@[simp] theorem exec_drwVxVyN : exec (.drwVxVyN x y n) s =
    guarded (checkRead s.base n.toNat) (encode (.drwVxVyN x y n)) s
      ((s.setFb (s.drawn x y n).fb).setReg vF (flagByte (s.drawn x y n).coll)).advance := rfl
@[simp] theorem exec_skpVx : exec (.skpVx x) s = .next (skipIf (s.keyDown (s.lowNibble x)) s) := rfl
@[simp] theorem exec_sknpVx : exec (.sknpVx x) s = .next (skipIf (!s.keyDown (s.lowNibble x)) s) := rfl
@[simp] theorem exec_ldVxDt : exec (.ldVxDt x) s = .next (s.setReg x s.dt).advance := rfl
@[simp] theorem exec_ldDtVx : exec (.ldDtVx x) s = .next (s.setDt (s.reg x)).advance := rfl
@[simp] theorem exec_ldStVx : exec (.ldStVx x) s = .next (s.setSt (s.reg x)).advance := rfl
@[simp] theorem exec_ldVxK : exec (.ldVxK x) s = .next ((s.setWait (.awaitingKey x)).setKlatch s.key) := rfl

/-- 00EE on an empty stack. -/
theorem exec_ret_empty (h : s.sp = 0) : exec .ret s = .next (raise .stackUnderflowError (encode .ret) s) :=
  if_pos h

/-- 00EE on a stack with an entry. -/
theorem exec_ret_pop (h0 : s.sp ≠ 0) (h : s.sp.toNat - 1 < stackDepth) :
    exec .ret s = .next ((s.setSp (s.sp - 1)).setPc (s.slot ⟨s.sp.toNat - 1, h⟩)) :=
  (if_neg h0).trans (dif_pos h)

/-- 2NNN on a full stack. -/
theorem exec_callNnn_full (h : s.sp = 16) :
    exec (.callNnn nnn) s = .next (raise .stackOverflowError (encode (.callNnn nnn)) s) :=
  if_pos h

/-- 2NNN on a stack with a free slot. -/
theorem exec_callNnn_push (h : s.sp.toNat < stackDepth) :
    exec (.callNnn nnn) s =
      .next (((s.setSlot ⟨s.sp.toNat, h⟩ s.npc).setSp (s.sp + 1)).setPc (target nnn)) := by
  have h16 : s.sp ≠ 16 := fun e => by simp [e, stackDepth] at h
  exact (if_neg h16).trans (dif_pos h)

end

/-! ### The shared operations of the meanings -/

/-- A skip changes PC and nothing else. -/
theorem skipIf_eq (cond : Bool) (s : State) :
    skipIf cond s = s.setPc (if cond then s.npc + 2 else s.npc) := rfl

/-- Every register after a result and a flag have been written: the flag wins in VF. -/
@[simp] theorem State.setResultFlag_reg (s : State) (x r : Reg) (b : Byte) (f : Bool) :
    (s.setResultFlag x b f).reg r = if r = vF then flagByte f else if r = x then b else s.reg r := by
  simp [State.setResultFlag]

/-- A result with a flag writes two registers and nothing else. -/
theorem State.setResultFlag_eq (s : State) (x : Reg) (b : Byte) (f : Bool) :
    s.setResultFlag x b f = (s.setReg x b).setReg vF (flagByte f) := rfl

/-- A store at I either faults, or writes the bytes and advances. -/
theorem storeAtI_cases (op : Word) (bs : List Byte) (s : State) :
    (checkWrite s.base bs.length = none ∧
      storeAtI op bs s = .next (s.setMem (storeBytes s.config s.mem s.base bs)).advance) ∨
    ∃ k, checkWrite s.base bs.length = some k ∧ storeAtI op bs s = .next (raise k op s) :=
  guarded_cases ..

/-! ### The random source -/

/-- While supplied bytes are left, the next byte drawn is the one supplied at the place reached. -/
theorem State.nextRandom_supplied {s : State} {b : Byte} (h : s.config.random.supplied[s.draws]? = some b) :
    s.nextRandom = b := by
  simp [State.nextRandom, sourceByte, h]

/-- Past the supplied bytes, the next byte drawn is free. -/
theorem State.nextRandom_free {s : State} (h : s.config.random.supplied[s.draws]? = none) :
    s.nextRandom = Config.randomByte s.config.random.seed s.draws := by
  simp [State.nextRandom, sourceByte, h]

/-! ### Events -/

@[simp] theorem tick_dt (s : State) : (tick s).dt = countDown s.dt := rfl
@[simp] theorem tick_st (s : State) : (tick s).st = countDown s.st := rfl

theorem countDown_toNat (b : Byte) : (countDown b).toNat = b.toNat - 1 := by
  unfold countDown
  split
  · next h => simp [h]
  · next h =>
    have : b.toNat ≠ 0 := fun e => h (BitVec.eq_of_toNat_eq (by simpa using e))
    rw [BitVec.toNat_sub]
    have := b.isLt
    simp
    omega

/-- A poll without a new key only samples the keys. -/
theorem keyWaitPoll_none {s : State} (x : Reg) (h : s.newKey = none) : keyWaitPoll x s = s.setKlatch s.key := by
  simp [keyWaitPoll, h]

/-- A poll with a new key completes the wait. -/
theorem keyWaitPoll_some {s : State} {k : Reg} (x : Reg) (h : s.newKey = some k) :
    keyWaitPoll x s = (((s.setReg x (keyByte k)).setWait .none).setKlatch s.key).advance := by
  simp [keyWaitPoll, h]

/-! ### The core's step and the machine's step -/

theorem coreStep_halted {s : State} {r : FaultRecord} (h : s.fault = some r) : coreStep s = .next s := by
  simp [coreStep, h]

theorem coreStep_waiting {s : State} {x : Reg} (hf : s.fault = none) (hw : s.wait = .awaitingKey x) :
    coreStep s = .next (keyWaitPoll x s) := by
  simp [coreStep, hf, hw]

theorem coreStep_running {s : State} (h : s.Running) :
    coreStep s = if s.pc.toNat + 1 < memSize then executeWord s.wordAtPc s
      else .next (raise .memoryBoundsFault 0 s) := by
  obtain ⟨hf, hw⟩ := h
  unfold coreStep
  rw [hf, hw]
  simp only [State.fetch_eq]
  by_cases hp : s.pc.toNat + 1 < memSize
  · simp only [hp, if_true]
    rfl
  · simp only [hp, if_false]

/-- What the core's step can be: nothing on a halted core, a poll on a waiting one, the fetch fault, the unknown
opcode, or the instruction at PC. -/
theorem coreStep_cases (s : State) :
    (∃ r, s.fault = some r ∧ coreStep s = .next s) ∨
    (∃ x, s.fault = none ∧ s.wait = .awaitingKey x ∧ coreStep s = .next (keyWaitPoll x s)) ∨
    (s.Running ∧ memSize ≤ s.pc.toNat + 1 ∧ coreStep s = .next (raise .memoryBoundsFault 0 s)) ∨
    (s.Running ∧ s.pc.toNat + 1 < memSize ∧ (∃ e, decodeWord s.wordAtPc = .error e) ∧
      coreStep s = .next (raise .unknownOpcodeError s.wordAtPc s)) ∨
    ∃ i, s.Running ∧ s.pc.toNat + 1 < memSize ∧ decodeWord s.wordAtPc = .ok i ∧ coreStep s = exec i s := by
  cases hf : s.fault with
  | some r => exact .inl ⟨r, rfl, coreStep_halted hf⟩
  | none =>
    cases hw : s.wait with
    | awaitingKey x => exact .inr (.inl ⟨x, rfl, rfl, coreStep_waiting hf hw⟩)
    | none =>
      have hrun : s.Running := ⟨hf, hw⟩
      have hstep := coreStep_running hrun
      by_cases hp : s.pc.toNat + 1 < memSize
      · rw [if_pos hp, executeWord] at hstep
        cases hd : decodeWord s.wordAtPc with
        | error e =>
          rw [hd] at hstep
          exact .inr (.inr (.inr (.inl ⟨hrun, hp, ⟨e, rfl⟩, hstep⟩)))
        | ok i =>
          rw [hd] at hstep
          exact .inr (.inr (.inr (.inr ⟨i, hrun, hp, rfl, hstep⟩)))
      · rw [if_neg hp] at hstep
        exact .inr (.inr (.inl ⟨hrun, Nat.not_lt.mp hp, hstep⟩))

/-- When the core's step comes next, a machine step is the core's step. -/
theorem step_of_coreNext {s : State} (h : s.CoreNext) : step s = coreStep s.eventTaken := by
  unfold step State.eventTaken
  cases hi : s.inputs with
  | nil =>
    have : s.setInputs [] = s := by rw [← hi]; rfl
    simp [this]
  | cons e rest =>
    rcases h with h | h
    · simp [hi] at h
    · have : e = .step := by simpa [hi] using h
      subst this
      rfl

/-- What a machine step can be. -/
theorem step_cases (s : State) :
    (s.CoreNext ∧ step s = coreStep s.eventTaken) ∨
    (s.inputs.head? = some .tick ∧ step s = .next (tick s.eventTaken)) ∨
    ∃ k p, s.inputs.head? = some (.setKey k p) ∧ step s = .next (setKey k p s.eventTaken) := by
  cases hi : s.inputs with
  | nil =>
    have h : s.CoreNext := .inl hi
    exact .inl ⟨h, step_of_coreNext h⟩
  | cons e rest =>
    cases e with
    | step =>
      have h : s.CoreNext := .inr (by rw [hi]; rfl)
      exact .inl ⟨h, step_of_coreNext h⟩
    | tick => exact .inr (.inl ⟨rfl, by simp [step, State.eventTaken, hi, perform]⟩)
    | setKey k p => exact .inr (.inr ⟨k, p, rfl, by simp [step, State.eventTaken, hi, perform]⟩)

end Sys2Proof.Machine
end

