-- ==== Sys2Proof/Tests/Slice0.lean ====
section
/-! SUPPORT. The model's own tests. Expected results are those of 95_test_vectors.md (the id stands in each docstring)
or are worked out by hand from the rule named. Then, for every statement with hypotheses, a witness that meets them. -/

namespace Sys2Proof.Tests

open Sys2Proof.Machine

/-! ### Small states -/

/-- `s` with PC at `pc` and the word `w` stored there. -/
def placed (pc w : Nat) (s : State) : State := (s.setPc (BitVec.ofNat 16 pc)).withFetchWord 16 w

/-- `s` with the word `w` stored at 0x200, where PC is. -/
def prog (w : Nat) (s : State) : State := placed 0x200 w s

/-- `s` with some bytes of memory. -/
def poke (a : Nat) (bs : List Byte) (s : State) : State := s.setMem (storeBytes s.config s.mem a bs)

/-- Construction with one choice of the quirk profile. -/
def profile (edge : SpriteEdge) (src : ShiftSource) (ovf : IndexOverflow) : State :=
  State.construct { Config.default with spriteEdge := edge, shiftSource := src, indexOverflow := ovf }

/-- Construction with a random source that answers the bytes `bs` first. -/
def sourced (bs : List Byte) : State :=
  State.construct { Config.default with random := { supplied := bs, seed := 0 } }

/-- One step answers a next state, and it is as `p` says. -/
def steps (s : State) (p : State → Bool) : Bool :=
  match step s with
  | .next t => p t
  | .fault _ => false
  | .refused _ => false

/-- One step changes the latch to this fault and changes nothing else. -/
def faults (s : State) (k : FaultKind) (op pc : Nat) (depth : Nat) : Bool :=
  steps s (fun t => t == s.setFault
    (some { kind := k, opcode := BitVec.ofNat 16 op, pc := BitVec.ofNat 16 pc, depth := BitVec.ofNat 8 depth }))

/-- The cells of row `y` that are on. -/
def rowOn (s : State) (y : Nat) : List Nat := (List.range 64).filter (fun x => cell s.fb y x)

/-! ### Well-formedness: each check refuses an ill-formed term -/

theorem test_register_sixteen_is_refused : regOk 16 = false := by decide
theorem test_n_sixteen_is_refused : nOk 16 = false := by decide
theorem test_nn_256_is_refused : nnOk 256 = false := by decide
theorem test_nnn_4096_is_refused : nnnOk 4096 = false := by decide
theorem test_empty_image_is_refused : imageOk [] = false := by decide
theorem test_image_of_3585_bytes_is_refused : imageOk (List.replicate 3585 0) = false := by
  unfold imageOk
  rw [List.length_replicate]
  rfl

/-! ### Decoding, word by word from the encodings of spec/opcode_table.json -/

theorem test_decode_control :
    decodeTableWord 16 0b0000_0000_1110_1110 = some .ret ∧
    decodeTableWord 16 0b0001_0010_0011_0100 = some (.jpNnn 0x234) ∧
    decodeTableWord 16 0b0010_1010_1011_1100 = some (.callNnn 0xABC) ∧
    decodeTableWord 16 0b1011_1111_0000_0001 = some (.jpV0Nnn 0xF01) := by decide

theorem test_decode_skips :
    decodeTableWord 16 0b0011_0001_1000_0010 = some (.seVxNn 1 0x82) ∧
    decodeTableWord 16 0b0100_1110_0111_1101 = some (.sneVxNn 0xE 0x7D) ∧
    decodeTableWord 16 0b0101_0011_1100_0000 = some (.seVxVy 3 0xC) ∧
    decodeTableWord 16 0b1001_0101_1010_0000 = some (.sneVxVy 5 0xA) := by decide

theorem test_decode_loads :
    decodeTableWord 16 0b0110_1010_1001_1101 = some (.ldVxNn 0xA 0x9D) ∧
    decodeTableWord 16 0b0111_0110_0000_1111 = some (.addVxNn 6 0x0F) ∧
    decodeTableWord 16 0b1000_0001_0010_0000 = some (.ldVxVy 1 2) := by decide

theorem test_decode_alu :
    decodeTableWord 16 0b1000_0001_0010_0001 = some (.orVxVy 1 2) ∧
    decodeTableWord 16 0b1000_0011_0100_0010 = some (.andVxVy 3 4) ∧
    decodeTableWord 16 0b1000_0101_0110_0011 = some (.xorVxVy 5 6) ∧
    decodeTableWord 16 0b1000_1010_1011_0100 = some (.addVxVy 0xA 0xB) ∧
    decodeTableWord 16 0b1000_0111_1000_0101 = some (.subVxVy 7 8) ∧
    decodeTableWord 16 0b1000_1001_1100_0110 = some (.shrVxVy 9 0xC) ∧
    decodeTableWord 16 0b1000_1101_1110_0111 = some (.subnVxVy 0xD 0xE) ∧
    decodeTableWord 16 0b1000_1111_0000_1110 = some (.shlVxVy 0xF 0) := by decide

theorem test_decode_index_memory :
    decodeTableWord 16 0b1010_0101_0000_1010 = some (.ldINnn 0x50A) ∧
    decodeTableWord 16 0b1111_0001_0001_1110 = some (.addIVx 1) ∧
    decodeTableWord 16 0b1111_0010_0010_1001 = some (.ldFVx 2) ∧
    decodeTableWord 16 0b1111_0011_0011_0011 = some (.ldBVx 3) ∧
    decodeTableWord 16 0b1111_0100_0101_0101 = some (.ldMemVx 4) ∧
    decodeTableWord 16 0b1111_0101_0110_0101 = some (.ldVxMem 5) := by decide

theorem test_decode_random_display :
    decodeTableWord 16 0b1100_0111_1010_0101 = some (.rndVxNn 7 0xA5) ∧
    decodeTableWord 16 0b0000_0000_1110_0000 = some .cls ∧
    decodeTableWord 16 0b1101_0001_0010_0101 = some (.drwVxVyN 1 2 5) := by decide

theorem test_decode_keypad_timers :
    decodeTableWord 16 0b1110_1000_1001_1110 = some (.skpVx 8) ∧
    decodeTableWord 16 0b1110_1001_1010_0001 = some (.sknpVx 9) ∧
    decodeTableWord 16 0b1111_1010_0000_1010 = some (.ldVxK 0xA) ∧
    decodeTableWord 16 0b1111_1011_0000_0111 = some (.ldVxDt 0xB) ∧
    decodeTableWord 16 0b1111_1100_0001_0101 = some (.ldDtVx 0xC) ∧
    decodeTableWord 16 0b1111_1101_0001_1000 = some (.ldStVx 0xD) := by decide

/-- E6 to E10: words that are no instruction. -/
theorem test_unknown_words :
    ([0x0000, 0x00E1, 0x0123, 0x5121, 0x512F, 0x9121, 0x8128, 0x812D, 0x812F, 0xE29F, 0xE200, 0xF200, 0xF21F, 0xF256,
      0xF285].all fun w => (decodeTableWord 16 w).isNone) = true := by decide

/-! ### One step each, from 95_test_vectors.md -/

/-- D1. -/
theorem test_cls_turns_cells_off : steps (prog 0x00E0 (State.reset.setFb (Vector.replicate 32 5)))
    (fun t => t.fb == blankFb && t.pc == 0x202) = true := by decide

/-- F4. -/
theorem test_ret_pops : steps (placed 0x210 0x00EE ((State.reset.setSlot 0 0x206).setSp 1))
    (fun t => t.pc == 0x206 && t.sp == 0 && t.slot 0 == 0x206) = true := by decide

/-- X3. -/
theorem test_ret_underflow : faults (prog 0x00EE State.reset) .stackUnderflowError 0x00EE 0x200 0 = true := by decide

/-- F1, F2. -/
theorem test_jp : steps (placed 0x208 0x1204 State.reset) (fun t => t.pc == 0x204) = true ∧
    steps (placed 0x20A 0x120A State.reset) (fun t => t == placed 0x20A 0x120A State.reset) = true := by decide

/-- F5. -/
theorem test_call_sixteenth : steps (placed 0x300 0x2400 (State.reset.setSp 15))
    (fun t => t.pc == 0x400 && t.sp == 16 && t.slot 15 == 0x302) = true := by decide

/-- X4. -/
theorem test_call_overflow : faults (prog 0x2200 (State.reset.setSp 16)) .stackOverflowError 0x2200 0x200 16 = true := by
  decide

/-- B1, B2. -/
theorem test_se_immediate : steps (prog 0x3000 State.reset) (fun t => t.pc == 0x204) = true ∧
    steps (prog 0x3000 (State.reset.setReg 0 1)) (fun t => t.pc == 0x202) = true := by decide

/-- B3, B4. -/
theorem test_sne_immediate : steps (prog 0x4311 (State.reset.setReg 3 0x10)) (fun t => t.pc == 0x204) = true ∧
    steps (prog 0x4310 (State.reset.setReg 3 0x10)) (fun t => t.pc == 0x202) = true := by decide

/-- B5, B6. -/
theorem test_se_register :
    steps (prog 0x5120 ((State.reset.setReg 1 0x7F).setReg 2 0x7F)) (fun t => t.pc == 0x204) = true ∧
    steps (prog 0x5120 ((State.reset.setReg 1 0x7F).setReg 2 0x80)) (fun t => t.pc == 0x202) = true := by decide

/-- B8, B9. -/
theorem test_sne_register :
    steps (prog 0x9120 ((State.reset.setReg 1 1).setReg 2 2)) (fun t => t.pc == 0x204) = true ∧
    steps (prog 0x9330 State.reset) (fun t => t.pc == 0x202) = true := by decide

/-- A1, and E12 at an odd PC. -/
theorem test_ld_immediate : steps (prog 0x6A9D State.reset) (fun t => t.reg 10 == 0x9D && t.pc == 0x202) = true ∧
    steps (placed 0x201 0x6007 State.reset) (fun t => t.reg 0 == 7 && t.pc == 0x203) = true := by decide

/-- A2. -/
theorem test_add_immediate_wraps : steps (prog 0x70FF ((State.reset.setReg 0 5).setReg 15 1))
    (fun t => t.reg 0 == 4 && t.reg 15 == 1) = true := by decide

/-- R162 of 42_load_alu.md. -/
theorem test_ld_register : steps (prog 0x8120 ((State.reset.setReg 1 1).setReg 2 0x33))
    (fun t => t.reg 1 == 0x33 && t.reg 2 == 0x33) = true := by decide

/-- A4. -/
theorem test_logic :
    steps (prog 0x8121 (((State.reset.setReg 1 0xF0).setReg 2 0x0F).setReg 15 1))
      (fun t => t.reg 1 == 0xFF && t.reg 15 == 1) = true ∧
    steps (prog 0x8122 (((State.reset.setReg 1 0xF0).setReg 2 0x0F).setReg 15 1))
      (fun t => t.reg 1 == 0 && t.reg 15 == 1) = true ∧
    steps (prog 0x8123 (((State.reset.setReg 1 0xF0).setReg 2 0x0F).setReg 15 1))
      (fun t => t.reg 1 == 0xFF && t.reg 15 == 1) = true := by decide

/-- A5. -/
theorem test_add_carries : steps (prog 0x8014 ((State.reset.setReg 0 0xC8).setReg 1 0x64))
    (fun t => t.reg 0 == 0x2C && t.reg 15 == 1) = true := by decide

/-- A10: the flag wins over the result in VF. -/
theorem test_add_into_vf : steps (prog 0x8F14 ((State.reset.setReg 15 0x10).setReg 1 0x20))
    (fun t => t.reg 15 == 0) = true := by decide

/-- A11, A13. -/
theorem test_sub_borrow :
    steps (prog 0x8015 ((State.reset.setReg 0 5).setReg 1 7)) (fun t => t.reg 0 == 0xFE && t.reg 15 == 0) = true ∧
    steps (prog 0x8015 ((State.reset.setReg 0 7).setReg 1 7)) (fun t => t.reg 0 == 0 && t.reg 15 == 1) = true := by
  decide

/-- A15, A16. -/
theorem test_subn_borrow :
    steps (prog 0x8017 ((State.reset.setReg 0 5).setReg 1 7)) (fun t => t.reg 0 == 2 && t.reg 15 == 1) = true ∧
    steps (prog 0x8017 ((State.reset.setReg 0 7).setReg 1 5)) (fun t => t.reg 0 == 0xFE && t.reg 15 == 0) = true := by
  decide

/-- A17, A25: the shift source of the two profiles. -/
theorem test_shr_source :
    steps (prog 0x8236 ((State.reset.setReg 2 5).setReg 3 0xF0)) (fun t => t.reg 2 == 2 && t.reg 15 == 1) = true ∧
    steps (prog 0x8236 (((profile .clip .vy .off).setReg 2 5).setReg 3 0xF0))
      (fun t => t.reg 2 == 0x78 && t.reg 15 == 0 && t.reg 3 == 0xF0) = true := by decide

/-- A21, A26. -/
theorem test_shl_source :
    steps (prog 0x820E (State.reset.setReg 2 0x81)) (fun t => t.reg 2 == 2 && t.reg 15 == 1) = true ∧
    steps (prog 0x823E (((profile .clip .vy .off).setReg 2 5).setReg 3 0xF1))
      (fun t => t.reg 2 == 0xE2 && t.reg 15 == 1) = true := by decide

/-- M1. -/
theorem test_ld_index : steps (prog 0xA300 State.reset) (fun t => t.i == 0x300) = true := by decide

/-- F7, F8. -/
theorem test_jp_v0 : steps (prog 0xBFFF (State.reset.setReg 0 0xFF)) (fun t => t.pc == 0x10FE) = true ∧
    steps (prog 0xB300 (State.reset.setReg 5 0x10)) (fun t => t.pc == 0x300) = true := by decide

/-- N1, N3: the test supplies the sequence 0xA7, 0x3C, and the two draws take its bytes in order. -/
theorem test_rnd_supplied :
    steps (prog 0xC30F (sourced [0xA7, 0x3C])) (fun t => t.reg 3 == 0x07 && t.draws == 1) = true ∧
    steps (prog 0xC3FF ((sourced [0xA7, 0x3C]).setDraws 1)) (fun t => t.reg 3 == 0x3C && t.draws == 2) = true := by decide

/-- N2: whatever the byte drawn, NN = 0 gives 0. -/
theorem test_rnd_masks : exec (.rndVxNn 3 0) (State.reset.setReg 3 0x55) =
    .next ((State.reset.setReg 3 0).setDraws 1).advance := by
  have h : Config.randomByte 0 0 &&& (0 : Byte) = 0 := BitVec.and_zero
  show Host.Outcome.next ((((State.reset.setReg 3 0x55).setReg 3 (Config.randomByte 0 0 &&& 0)).setDraws 1).advance) = _
  rw [h]
  rfl

/-- D5, D7: a sprite over the right and lower edges, clipped and wrapped. -/
theorem test_drw_edges :
    steps (prog 0xD122 (((poke 0x20C [0xFF, 0x81] State.reset).setI 0x20C).setReg 1 62 |>.setReg 2 31))
      (fun t => rowOn t 31 == [62, 63] && rowOn t 0 == [] && t.reg 15 == 0) = true ∧
    steps (prog 0xD122 (((poke 0x20C [0xFF, 0x81] (profile .wrap .vx .off)).setI 0x20C).setReg 1 62 |>.setReg 2 31))
      (fun t => rowOn t 31 == [0, 1, 2, 3, 4, 5, 62, 63] && rowOn t 0 == [5, 62] && t.reg 15 == 0) = true := by decide

/-- D8: an on cell goes off, and that is a collision. -/
theorem test_drw_collides :
    steps (prog 0xD011 (((poke 0x300 [0xC0] State.reset).setI 0x300).setFb (blankFb.set 0 1)))
      (fun t => rowOn t 0 == [1] && t.reg 15 == 1) = true := by decide

/-- K1, K2. -/
theorem test_skp : steps (placed 0x20C 0xE29E ((setKey 7 true State.reset).setReg 2 7)) (fun t => t.pc == 0x210) = true ∧
    steps (placed 0x20C 0xE29E (State.reset.setReg 2 7)) (fun t => t.pc == 0x20E) = true := by decide

/-- K3. -/
theorem test_sknp : steps (placed 0x300 0xE2A1 (State.reset.setReg 2 7)) (fun t => t.pc == 0x304) = true := by decide

/-- T2. -/
theorem test_ld_from_delay : steps (prog 0xF107 (State.reset.setDt 2)) (fun t => t.reg 1 == 2 && t.dt == 2) = true := by
  decide

/-- K5. -/
theorem test_key_wait_arms : steps (placed 0x20A 0xF20A (setKey 3 true State.reset))
    (fun t => t.wait == .awaitingKey 2 && t.klatch == 8 && t.pc == 0x20A && t.reg 2 == 0) = true := by decide

/-- K10: two new keys at one poll; a key already down at the last sample does not count (K8). -/
theorem test_key_wait_polls :
    steps ((((State.reset.setPc 0x20A).setWait (.awaitingKey 2)).setKeys 0x0218).setKlatch 0x0008)
      (fun t => t.wait == .none && t.reg 2 == 4 && t.pc == 0x20C && t.klatch == 0x0218) = true ∧
    steps ((((State.reset.setPc 0x20A).setWait (.awaitingKey 2)).setKeys 0x0008).setKlatch 0x0008)
      (fun t => t.wait == .awaitingKey 2 && t.pc == 0x20A) = true := by decide

/-- T1. -/
theorem test_ld_to_delay : steps (prog 0xF015 (State.reset.setReg 0 3)) (fun t => t.dt == 3 && t.st == 0) = true := by
  decide

/-- T3. -/
theorem test_ld_to_sound : steps (prog 0xF418 (State.reset.setReg 4 0x1E))
    (fun t => t.st == 0x1E && t.sound && t.dt == 0) = true := by decide

/-- M2, M3: past 0xFFF, in the two profiles. -/
theorem test_add_index_wraps :
    steps (prog 0xF11E (((State.reset.setI 0xFFE).setReg 1 5).setReg 15 7)) (fun t => t.i == 3 && t.reg 15 == 7) = true ∧
    steps (prog 0xF11E (((profile .clip .vx .on).setI 0xFFE).setReg 1 5)) (fun t => t.i == 3 && t.reg 15 == 1) = true := by
  decide

/-- M8, M9. -/
theorem test_glyph_address : steps (prog 0xF029 (State.reset.setReg 0 0x0F)) (fun t => t.i == 0x9B) = true ∧
    steps (prog 0xF029 (State.reset.setReg 0 0x1A)) (fun t => t.i == 0x82) = true := by decide

/-- M5. -/
theorem test_decimal_store : steps (prog 0xFA33 ((State.reset.setReg 10 157).setI 0x300))
    (fun t => loadBytes t.config t.mem 0x300 3 == [1, 5, 7] && t.i == 0x300) = true := by decide

/-- M16, M18. -/
theorem test_decimal_store_faults :
    faults (prog 0xF033 (State.reset.setI 0x1FE)) .writeProtectFault 0xF033 0x200 0 = true ∧
    faults (prog 0xF033 (State.reset.setI 0xFFE)) .memoryBoundsFault 0xF033 0x200 0 = true := by decide

/-- M10. -/
theorem test_register_store : steps (prog 0xF155 (((State.reset.setReg 0 1).setReg 1 2).setReg 2 3 |>.setI 0x300))
    (fun t => loadBytes t.config t.mem 0x300 3 == [1, 2, 0] && t.i == 0x300) = true := by decide

/-- M13, M15. -/
theorem test_register_store_faults :
    faults (prog 0xFF55 (State.reset.setI 0xFF1)) .memoryBoundsFault 0xFF55 0x200 0 = true ∧
    faults (prog 0xF055 ((State.reset.setReg 0 1).setI 0x1FF)) .writeProtectFault 0xF055 0x200 0 = true := by decide

/-- M11. -/
theorem test_register_load : steps (prog 0xF265 (((poke 0x300 [1, 5, 7] State.reset).setReg 3 0x99).setI 0x300))
    (fun t => t.v.toList.take 4 == [1, 5, 7, 0x99] && t.i == 0x300) = true := by decide

/-- M13. -/
theorem test_register_load_faults :
    faults (prog 0xFF65 (State.reset.setI 0xFF1)) .memoryBoundsFault 0xFF65 0x200 0 = true := by decide

/-- T4: a tick of 3, and of 0; the event leaves the schedule. -/
theorem test_tick : steps ((State.reset.setDt 3).setInputs [.tick])
    (fun t => t.dt == 2 && t.st == 0 && t.inputs == [] && t.pc == 0x200) = true := by decide

/-- X8: the fetch faults as a whole, with opcode 0x0000. -/
theorem test_fetch_fault :
    faults ((State.reset.setPc 0xFFF).setSp 2) .memoryBoundsFault 0x0000 0xFFF 2 = true := by decide

/-- R1 and 10_state.md R46: the font lies at 0x050..0x09F. -/
theorem test_reset_memory : State.reset.byte 0x04F = 0 ∧ State.reset.byte 0x050 = 0xF0 ∧ State.reset.byte 0x09F = 0x80 ∧
    State.reset.byte 0x0A0 = 0 ∧ State.reset.mem.wf State.reset.config := by decide

/-- L4: a loaded image, and that a byte equal to its reset contents is not listed. -/
theorem test_load_program : (match loadProgram [0x12, 0x00] State.reset with
    | .ok t => t.mem == [(0x200, 0x12)]
    | .error _ => false) = true := by decide

/-! ### Witnesses: the hypotheses of the statements can be met -/

/-- A key wait at its FX0A. -/
def waitingState : State := (placed 0x20A 0xF20A State.reset).setWait (.awaitingKey 2)

theorem witness_DecodeOfEncodeIsTheInstruction : (Instr.drwVxVyN 15 0 15).WellFormed := by decide

theorem witness_EncodeOfDecodedWordIsTheWord : decodeWord 0xFF65 = .ok (.ldVxMem 15) := by rfl

theorem witness_WordDecodesIffItMatchesARow : decodeWord 0x6A9D = .ok (.ldVxNn 0xA 0x9D) ∧
    (0x6A9D : Word) &&& (Instr.ldVxNn 0 0).row.1 = (Instr.ldVxNn 0 0).row.2 ∧
    (0x6A9D : Word) &&& (Instr.ldVxNn 3 7).row.1 = (Instr.ldVxNn 3 7).row.2 := ⟨rfl, by decide, by decide⟩

theorem witness_UnknownWordsAreRejectedByName : UnknownWord 0x00E1 ∧ ¬ UnknownWord 0x00E0 ∧ UnknownWord 0xF066 ∧
    ¬ UnknownWord 0xF065 := by
  unfold UnknownWord
  refine ⟨?_, ?_, ?_, ?_⟩ <;> decide

theorem witness_WriteChangesItsByteOrFaults :
    (0x1FF : Nat) < 0x200 ∧ (0x200 : Nat) ≤ 0x200 ∧ (0xFFF : Nat) < 4096 ∧ 4096 ≤ (4096 : Nat) := by decide

theorem witness_ReadGivesTheByteOrTheBoundsFault : (0xFFF : Nat) < 4096 ∧ 4096 ≤ (4096 : Nat) := by decide

theorem witness_CanonicalMemoryIsDeterminedByItsBytes :
    Memory.wf Config.default [(0x200, 0x12), (0x201, 0x34)] ∧
      Memory.wf Config.default (storeBytes Config.default [] 0x200 [0x12, 0x34]) ∧
      ∀ a, a < 4096 → Memory.read Config.default [(0x200, 0x12), (0x201, 0x34)] a =
        Memory.read Config.default (storeBytes Config.default [] 0x200 [0x12, 0x34]) a :=
  ⟨by decide, by decide, fun _ _ => rfl⟩

theorem witness_FetchIsBigEndian : (State.reset.setPc 0xFFE).Fetchable := by
  unfold State.Fetchable
  decide

theorem witness_StepRunsTheDecodedInstruction : (placed 0xFFE 0x1200 State.reset).CoreNext ∧
    (placed 0xFFE 0x1200 State.reset).Running ∧ (placed 0xFFE 0x1200 State.reset).Fetchable ∧
    decodeWord (placed 0xFFE 0x1200 State.reset).wordAtPc = .ok (.jpNnn 0x200) := by
  unfold State.CoreNext State.Running State.Fetchable
  exact ⟨by decide, by decide, by decide, rfl⟩

theorem witness_HaltedStepChangesNothing :
    (State.reset.setFault (some ⟨.unknownOpcodeError, 0, 0x200, 0⟩)).fault = some ⟨.unknownOpcodeError, 0, 0x200, 0⟩ := by
  decide

theorem witness_HaltedCoreNeverResumes :
    (State.reset.setFault (some ⟨.unknownOpcodeError, 0, 0x200, 0⟩)).fault = some ⟨.unknownOpcodeError, 0, 0x200, 0⟩ ∧
    (State.reset.setFault (some ⟨.unknownOpcodeError, 0, 0x200, 0⟩)).inputs = [] := by decide

theorem witness_FetchBeyondMemoryFaults :
    (State.reset.setPc 0xFFF).Running ∧ 0xFFF ≤ (State.reset.setPc 0xFFF).pc.toNat := by
  unfold State.Running
  decide

theorem witness_UnknownOpcodeFaultsWithTheWord :
    State.reset.Running ∧ State.reset.Fetchable ∧ UnknownWord State.reset.wordAtPc := by
  unfold State.Running State.Fetchable UnknownWord
  decide

/-- One fault with a word fetched, one of the fetch. -/
theorem witness_FaultsArePrecise :
    (State.reset.Running ∧ State.reset.Fetchable ∧
      coreStep State.reset = .next (raise .unknownOpcodeError 0 State.reset) ∧
      (raise .unknownOpcodeError 0 State.reset).fault = some ⟨.unknownOpcodeError, 0, 0x200, 0⟩) ∧
    ((State.reset.setPc 0xFFF).Running ∧ ¬ (State.reset.setPc 0xFFF).Fetchable ∧
      coreStep (State.reset.setPc 0xFFF) = .next (raise .memoryBoundsFault 0 (State.reset.setPc 0xFFF))) := by
  unfold State.Running State.Fetchable
  exact ⟨⟨by decide, by decide, rfl, rfl⟩, by decide, by decide, rfl⟩

theorem witness_EachFaultIsRaisedExactlyWhenItsConditionHolds :
    (prog 0x2200 (State.reset.setSp 16)).Running ∧ (prog 0x2200 (State.reset.setSp 16)).sp.toNat ≤ 16 := by
  unfold State.Running
  decide

/-- A skip at the last address that can be fetched; a key-wait that lasts and one that completes; a fault. -/
theorem witness_PcAfterEachInstruction :
    (∃ t, (State.reset.setPc 0xFFE).fault = none ∧ (State.reset.setPc 0xFFE).Fetchable ∧
      exec (.seVxNn 0 0) (State.reset.setPc 0xFFE) = .next t ∧ t.fault = none ∧ t.pc = 0x1002) ∧
    (waitingState.fault = none ∧ waitingState.wait = .awaitingKey 2 ∧ waitingState.Fetchable ∧
      ∃ t, coreStep waitingState = .next t ∧ t.wait ≠ .none) ∧
    ((waitingState.setKeys 8).fault = none ∧ (waitingState.setKeys 8).wait = .awaitingKey 2 ∧
      (waitingState.setKeys 8).Fetchable ∧ ∃ t, coreStep (waitingState.setKeys 8) = .next t ∧ t.wait = .none) ∧
    (State.reset.Running ∧ ∃ t, coreStep State.reset = .next t ∧ t.fault ≠ none) := by
  unfold State.Fetchable State.Running
  exact ⟨⟨_, by decide, by decide, rfl, by decide, by decide⟩,
    ⟨by decide, by decide, by decide, _, rfl, by decide⟩, ⟨by decide, by decide, by decide, _, rfl, by decide⟩,
    by decide, _, rfl, by decide⟩

theorem witness_CallPushesTheNextAddress :
    (State.reset.setSp 15).sp.toNat < 16 ∧ (State.reset.setSp 16).sp.toNat = 16 := by decide

theorem witness_ReturnPopsTheLastAddress : (State.reset.setSp 16).sp.toNat = (15 : Fin 16).val + 1 ∧
    (State.reset.setSp 1).sp.toNat = (0 : Fin 16).val + 1 ∧ State.reset.sp.toNat = 0 := by decide

theorem witness_ReturnFollowsTheCall : ∃ t u, (State.reset.setSp 15).sp.toNat < 16 ∧
    exec (.callNnn 0x300) (State.reset.setSp 15) = .next t ∧ u.sp = t.sp ∧
    (∀ k : Fin 16, k.val = (State.reset.setSp 15).sp.toNat → u.slot k = t.slot k) ∧ u ≠ t :=
  ⟨((State.reset.setSlot 15 0x202).setSp 16).setPc 0x300, (State.reset.setSlot 15 0x202).setSp 16, by decide, rfl, rfl,
    by decide, by decide⟩

theorem witness_SelfJumpIsAFixedPoint : (placed 0x20A 0x120A State.reset).Ended := by
  unfold State.Ended State.Running State.Fetchable
  exact ⟨by decide, by decide, 0x20A, rfl, rfl⟩

theorem witness_KeySkipsReadTheInputMap :
    (7 : Reg).val = ((State.reset.setReg 2 0xF7).reg 2).toNat % 16 := by decide

/-- Both shift sources: the operand is V2 = 5 under `vx` and V3 = 0xF0 under `vy`. -/
theorem witness_ShiftsRecordTheBitShiftedOut :
    (∃ s : State, (s.config.shiftSource = .vx → (5 : Byte) = s.reg 2) ∧
      (s.config.shiftSource = .vy → (5 : Byte) = s.reg 3) ∧ s.config.shiftSource = .vx) ∧
    (∃ s : State, (s.config.shiftSource = .vx → (0xF0 : Byte) = s.reg 2) ∧
      (s.config.shiftSource = .vy → (0xF0 : Byte) = s.reg 3) ∧ s.config.shiftSource = .vy) :=
  ⟨⟨(State.reset.setReg 2 5).setReg 3 0xF0, by decide, by decide, by decide⟩,
    ⟨((profile .clip .vy .off).setReg 2 5).setReg 3 0xF0, by decide, by decide, by decide⟩⟩

theorem witness_IndexAddWrapsAt4096 : (profile .clip .vx .off).config.indexOverflow = .off ∧
    (profile .clip .vx .on).config.indexOverflow = .on := by decide

/-- I at both ends of each range. -/
theorem witness_DecimalStoreWritesThreeDigits :
    (0x200 ≤ (State.reset.setI 0x200).i.toNat ∧ (State.reset.setI 0x200).i.toNat < 0xFFE) ∧
    (0x200 ≤ (State.reset.setI 0xFFD).i.toNat ∧ (State.reset.setI 0xFFD).i.toNat < 0xFFE) ∧
    0xFFE ≤ (State.reset.setI 0xFFE).i.toNat ∧ (State.reset.setI 0x1FF).i.toNat < 0x200 := by decide

theorem witness_RegisterStoreWritesV0ToVx :
    (0x200 ≤ (State.reset.setI 0x200).i.toNat ∧ (State.reset.setI 0x200).i.toNat + (15 : Reg).val < 4096) ∧
    (0x200 ≤ (State.reset.setI 0xFF0).i.toNat ∧ (State.reset.setI 0xFF0).i.toNat + (15 : Reg).val < 4096) ∧
    4096 ≤ (State.reset.setI 0xFF1).i.toNat + (15 : Reg).val ∧ (State.reset.setI 0x1FF).i.toNat < 0x200 := by decide

theorem witness_RegisterLoadReadsV0ToVx :
    (State.reset.setI 0xFF0).i.toNat + (15 : Reg).val < 4096 ∧
    4096 ≤ (State.reset.setI 0xFF1).i.toNat + (15 : Reg).val := by decide

theorem witness_StoreOverTheNextInstructionIsFetched : ∃ t,
    ((State.reset.setI 0x202).setReg 0 0x12).fault = none ∧ 1 ≤ (1 : Reg).val ∧
    ((State.reset.setI 0x202).setReg 0 0x12).i = ((State.reset.setI 0x202).setReg 0 0x12).pc + 2 ∧
    ((State.reset.setI 0x202).setReg 0 0x12).pc.toNat < 0xFFC ∧
    exec (.ldMemVx 1) ((State.reset.setI 0x202).setReg 0 0x12) = .next t ∧ t.fault = none :=
  ⟨_, by decide, by decide, by decide, by decide, rfl, by decide⟩

/-- The last supplied byte, the first place past it, and a source that supplies nothing. -/
theorem witness_RandomMasksOneFreeByte :
    ((sourced [0xA7, 0x3C]).setDraws 1).config.random.supplied[((sourced [0xA7, 0x3C]).setDraws 1).draws]? = some 0x3C ∧
    ((sourced [0xA7, 0x3C]).setDraws 2).config.random.supplied.length ≤ ((sourced [0xA7, 0x3C]).setDraws 2).draws ∧
    State.reset.config.random.supplied.length ≤ State.reset.draws ∧
    (0x0F : Byte).getLsbD 4 = false := by decide

/-- N = 0 anywhere, a last row at 0xFFF, and one row too many. -/
theorem witness_DrawFlipsTheLitCells :
    ((0 : Nibble).toNat = 0 ∨ (State.reset.setI 0xFFF).i.toNat + (0 : Nibble).toNat ≤ 4096) ∧
    ((1 : Nibble).toNat = 0 ∨ (State.reset.setI 0xFFF).i.toNat + (1 : Nibble).toNat ≤ 4096) ∧
    1 ≤ (2 : Nibble).toNat ∧ 4096 < (State.reset.setI 0xFFF).i.toNat + (2 : Nibble).toNat := by decide

/-- The lit cells of a row 0x80 at (0, 0), and that they matter: the first cell is lit, the second is not. -/
theorem witness_SpriteLights :
    SpriteLights ((poke 0x300 [0x80] State.reset).setI 0x300) 0 1 1 0 0 ∧
    ¬ SpriteLights ((poke 0x300 [0x80] State.reset).setI 0x300) 0 1 1 0 1 := by
  refine ⟨⟨0, 0, by decide, by decide, by decide, rfl, rfl⟩, ?_⟩
  rintro ⟨r, c, hr, hc, hb, -, hcol⟩
  have hr : r = 0 := by
    have : (1 : Nibble).toNat = 1 := rfl
    omega
  have hc1 : c = 1 := by
    have : ((((poke 0x300 [0x80] State.reset).setI 0x300).reg 0).toNat % 64) = 0 := rfl
    omega
  subst hr hc1
  revert hb
  decide

theorem witness_DrawingTwiceRestoresTheFramebuffer : ∃ t u w,
    ((1 : Nibble).toNat = 0 ∨ ((poke 0x300 [0x80] State.reset).setI 0x300).i.toNat + (1 : Nibble).toNat ≤ 4096) ∧
    exec (.drwVxVyN 0 1 1) ((poke 0x300 [0x80] State.reset).setI 0x300) = .next t ∧ u.fb = t.fb ∧
    u.i = ((poke 0x300 [0x80] State.reset).setI 0x300).i ∧
    u.reg 0 = ((poke 0x300 [0x80] State.reset).setI 0x300).reg 0 ∧
    u.reg 1 = ((poke 0x300 [0x80] State.reset).setI 0x300).reg 1 ∧
    u.config = ((poke 0x300 [0x80] State.reset).setI 0x300).config ∧
    (∀ r, r < (1 : Nibble).toNat → u.byte (0x300 + r) = ((poke 0x300 [0x80] State.reset).setI 0x300).byte (0x300 + r)) ∧
    exec (.drwVxVyN 0 1 1) u = .next w ∧
    ∀ row col, cell ((poke 0x300 [0x80] State.reset).setI 0x300).fb row col = false :=
  ⟨_, _, _, by decide, rfl, rfl, rfl, rfl, rfl, rfl, fun _ _ => rfl, rfl, fun row col => by
    show cell (Vector.replicate fbHeight 0) row col = false
    unfold cell
    split <;> simp⟩

theorem witness_SnapshotIsRowMajor : (63 : Nat) < 64 ∧ (31 : Nat) < 32 := by decide

/-- No key new, and two keys new. -/
theorem witness_KeyWaitPollCompletesWithTheLeastNewKey :
    (waitingState.fault = none ∧ waitingState.wait = .awaitingKey 2 ∧ ∀ k, ¬ waitingState.NewlyPressed k) ∧
    ((waitingState.setKeys 0x8010).fault = none ∧ (waitingState.setKeys 0x8010).wait = .awaitingKey 2 ∧
      (waitingState.setKeys 0x8010).NewlyPressed 4 ∧
      ∀ j, (waitingState.setKeys 0x8010).NewlyPressed j → (4 : Reg) ≤ j) := by
  unfold State.NewlyPressed
  decide

theorem witness_KeyWaitLastsUntilAKeyIsPressed : waitingState.fault = none ∧ waitingState.wait = .awaitingKey 2 ∧
    waitingState.inputs = [] ∧ ∀ k, ¬ waitingState.NewlyPressed k := by
  unfold State.NewlyPressed
  decide

theorem witness_SetKeyWritesOneKey :
    (State.reset.setInputs [.setKey 15 true, .tick]).inputs = .setKey 15 true :: [.tick] := by decide

theorem witness_TickCountsBothTimersDown : (State.reset.setInputs [.tick, .step]).inputs = .tick :: [.step] := by decide

theorem witness_ManyTicksStopAtZero :
    (State.reset.setInputs [.tick, .tick, .step]).inputs = List.replicate 2 .tick ++ [.step] := by decide

/-- 00E0 on a state with a cell on. -/
theorem witness_OnlyClearAndDrawWriteTheFramebuffer : ∃ t, exec .cls (State.reset.setFb (blankFb.set 0 1)) = .next t ∧
    t.fb ≠ (State.reset.setFb (blankFb.set 0 1)).fb :=
  ⟨_, rfl, by decide⟩

theorem witness_OnlyTwoInstructionsWriteMemory : ∃ t,
    exec (.ldMemVx 0) ((State.reset.setReg 0 1).setI 0x300) = .next t ∧
    t.byte 0x300 ≠ ((State.reset.setReg 0 1).setI 0x300).byte 0x300 :=
  ⟨_, rfl, by decide⟩

/-- Each clause of the statement about the special registers is met by some instruction. -/
theorem witness_SpecialRegistersHaveTheirOnlyWriters :
    (∃ t, exec (.ldINnn 0x300) State.reset = .next t ∧ t.i ≠ State.reset.i) ∧
    (∃ t, exec (.callNnn 0x300) State.reset = .next t ∧ t.sp ≠ State.reset.sp) ∧
    (∃ t, exec (.ldDtVx 0) (State.reset.setReg 0 1) = .next t ∧ t.dt ≠ State.reset.dt) ∧
    (∃ t, exec (.ldStVx 0) (State.reset.setReg 0 1) = .next t ∧ t.st ≠ State.reset.st) :=
  ⟨⟨_, rfl, by decide⟩, ⟨_, rfl, by decide⟩, ⟨_, rfl, by decide⟩, ⟨_, rfl, by decide⟩⟩

theorem witness_NoInstructionWritesTheInputsOrTheProfile : ∃ t, exec (.ldVxK 2) State.reset = .next t ∧
    t.wait ≠ State.reset.wait :=
  ⟨_, rfl, by decide⟩

theorem witness_VfChangesOnlyAsAFlagOrADestination : ∃ t, exec (.addVxVy 0 0) (State.reset.setReg 0 0x80) = .next t ∧
    t.reg vF ≠ (State.reset.setReg 0 0x80).reg vF :=
  ⟨_, rfl, by decide⟩

theorem witness_LowMemoryAndProfileNeverChange : ∃ t, step (prog 0xF055 ((State.reset.setReg 0 1).setI 0x200)) = .next t ∧
    (0x1FF : Nat) < 0x200 :=
  ⟨_, rfl, by decide⟩

/-- The invariant holds of a core that waits at its FX0A, and of reset. -/
theorem witness_StepKeepsTheInvariant :
    waitingState.Inv ∧ State.reset.Inv ∧ ∃ t, step waitingState = .next t := by
  refine ⟨⟨by decide, by decide, by decide, by decide, by decide, by decide, ?_, ?_⟩,
    ⟨by decide, by decide, by decide, by decide, by decide, by decide, ?_, ?_⟩, _, rfl⟩
  · intro x hx
    cases hx
    exact ⟨by unfold State.Fetchable; decide, rfl⟩
  · intro r hr
    cases hr
  · intro x hx
    cases hx
  · intro r hr
    cases hr

/-- The only stop: a 00EE with SP = 17. -/
theorem witness_StepAlwaysAnswersANextState :
    step (prog 0x00EE (State.reset.setSp 17)) = .fault .stackPointerBeyondStack ∧
    ∀ t, step (prog 0x00EE (State.reset.setSp 17)) ≠ .next t := by
  have h : step (prog 0x00EE (State.reset.setSp 17)) = .fault .stackPointerBeyondStack := rfl
  exact ⟨h, fun t ht => by rw [h] at ht; cases ht⟩

/-- A launch state with a key down and an event to come. -/
theorem witness_EveryLaunchStateHasTheInvariant : Launched Config.default [0x12, 0x00]
    (((poke 0x200 [0x12, 0x00] State.reset).setKeys 8).setInputs [.tick]) :=
  ⟨by decide, rfl⟩

theorem witness_ResetValuesAreThoseOfTheTable : (79 : Nat) < 80 ∧ ((0x04F : Nat) < 0x050 ∨ 0x09F < (0x04F : Nat)) ∧
    ((0x0A0 : Nat) < 0x050 ∨ 0x09F < (0x0A0 : Nat)) := by decide

theorem witness_LoadProgramCopiesTheImageOrRejectsIt :
    ([] : List Byte).length = 0 ∧ 3584 < (List.replicate 3585 (0 : Byte)).length ∧ 1 ≤ ([0x12] : List Byte).length ∧
    (List.replicate 3584 (0 : Byte)).length ≤ 3584 := by
  rw [List.length_replicate, List.length_replicate]
  decide

theorem witness_LoadFontChangesNothing : State.reset = State.construct Config.default ∧
    Launched Config.default [0x12, 0x00] (poke 0x200 [0x12, 0x00] State.reset) :=
  ⟨rfl, by decide, rfl⟩

end Sys2Proof.Tests
end

section
/-! SUPPORT. What an instruction does when its own check passes (`effect`), the one equation that ties it to `exec`
and to `instrFault`, and, field by field, which instructions write the field. -/

namespace Sys2Proof.Machine

/-! ### The checks of the instructions are the faults of `instrFault` -/

section
variable (s : State) (x y : Reg) (n : Nibble)

theorem State.regsUpTo_length : (s.regsUpTo x).length = x.val + 1 := by
  simp only [State.regsUpTo, List.length_take, Vector.length_toList]
  omega

theorem instrFault_drwVxVyN : instrFault (.drwVxVyN x y n) s = checkRead s.base n.toNat := by
  simp only [instrFault, checkRead, State.base, memSize]
  exact if_congr (by omega) rfl rfl

theorem instrFault_ldVxMem : instrFault (.ldVxMem x) s = checkRead s.base (x.val + 1) := by
  simp only [instrFault, checkRead, State.base, memSize]
  exact if_congr (by omega) rfl rfl

theorem instrFault_ldBVx : instrFault (.ldBVx x) s = checkWrite s.base (decimalDigits (s.reg x)).length := by
  have hlen : (decimalDigits (s.reg x)).length = 3 := rfl
  simp only [instrFault, checkWrite, State.base, memSize, progBase, hlen]
  exact if_congr (by omega) rfl (if_congr (by omega) rfl rfl)

theorem instrFault_ldMemVx : instrFault (.ldMemVx x) s = checkWrite s.base (s.regsUpTo x).length := by
  simp only [instrFault, checkWrite, State.base, memSize, progBase, State.regsUpTo_length]
  exact if_congr (by omega) rfl (if_congr (by omega) rfl rfl)

/-- The flag of FX1E as a write of the data registers. -/
theorem State.setIndexFlag_eq_setRegs (b : Bool) : s.setIndexFlag b = s.setRegs (s.setIndexFlag b).v := by
  unfold State.setIndexFlag
  split <;> rfl

/-- The address a 00EE pops is the slot below SP. -/
theorem State.top_eq_slot (h : s.sp.toNat - 1 < stackDepth) : s.top = s.slot ⟨s.sp.toNat - 1, h⟩ := by
  simp [State.top, State.slot, h]

end

/-! ### The effect of an instruction -/

/-- The state an instruction leaves when its own check passes. An instruction without a check leaves what `exec`
answers; the flag of FX1E is written as the registers it gives, and 00EE and 2NNN are for SP ≤ 16. -/
def effect (i : Instr) (s : State) : State :=
  match i with
  | .ret => (s.setSp (s.sp - 1)).setPc s.top
  | .callNnn nnn =>
    ((s.setSlot (Fin.ofNat stackDepth s.sp.toNat) s.npc).setSp (s.sp + 1)).setPc (target nnn)
  | .drwVxVyN x y n => ((s.setFb (s.drawn x y n).fb).setReg vF (flagByte (s.drawn x y n).coll)).advance
  | .addIVx x =>
    let t := s.setI (BitVec.ofNat 16 ((s.i.toNat + (s.reg x).toNat) % memSize))
    (t.setRegs (t.setIndexFlag (indexOverflow s.i (s.reg x))).v).advance
  | .ldBVx x => (s.setMem (storeBytes s.config s.mem s.base (decimalDigits (s.reg x)))).advance
  | .ldMemVx x => (s.setMem (storeBytes s.config s.mem s.base (s.regsUpTo x))).advance
  | .ldVxMem x => (s.setRegs (regsFrom s.v 0 (loadBytes s.config s.mem s.base (x.val + 1)))).advance
  | _ => match exec i s with
    | .next t => t
    | .fault _ | .refused _ => s

theorem exec_ret_eq_guarded {s : State} (h : s.sp.toNat ≤ 16) :
    exec .ret s = guarded (instrFault .ret s) (encode .ret) s (effect .ret s) := by
  by_cases h0 : s.sp = 0
  · have hf : instrFault .ret s = some .stackUnderflowError := if_pos (by simp [h0])
    rw [exec_ret_empty s h0, hf, guarded_some]
  · have hne : s.sp.toNat ≠ 0 := fun e => h0 (BitVec.eq_of_toNat_eq e)
    have hf : instrFault .ret s = none := if_neg hne
    have hlt : s.sp.toNat - 1 < stackDepth := by simp only [stackDepth]; omega
    rw [exec_ret_pop s h0 hlt, hf, guarded_none, effect, State.top_eq_slot s hlt]

theorem exec_callNnn_eq_guarded {s : State} (nnn : Addr) (h : s.sp.toNat ≤ 16) :
    exec (.callNnn nnn) s =
      guarded (instrFault (.callNnn nnn) s) (encode (.callNnn nnn)) s (effect (.callNnn nnn) s) := by
  by_cases h16 : s.sp.toNat = 16
  · have hf : instrFault (.callNnn nnn) s = some .stackOverflowError := if_pos h16
    rw [exec_callNnn_full s nnn (BitVec.eq_of_toNat_eq h16), hf, guarded_some]
  · have hf : instrFault (.callNnn nnn) s = none := if_neg h16
    have hlt : s.sp.toNat < stackDepth := by simp only [stackDepth]; omega
    have hslot : Fin.ofNat stackDepth s.sp.toNat = ⟨s.sp.toNat, hlt⟩ := Fin.ext (Nat.mod_eq_of_lt hlt)
    rw [exec_callNnn_push s nnn hlt, hf, guarded_none, effect, hslot]

/-- 00EE and 2NNN with SP > 16 stop (log 9). -/
theorem exec_stops_beyond_stack {i : Instr} {s : State} (hi : i = .ret ∨ ∃ nnn, i = .callNnn nnn)
    (h : 16 < s.sp.toNat) : exec i s = .fault .stackPointerBeyondStack := by
  have hne : ∀ b : Byte, b.toNat ≤ 16 → s.sp ≠ b := fun b hb e => by subst e; omega
  rcases hi with rfl | ⟨nnn, rfl⟩
  · exact (if_neg (hne 0 (by decide))).trans (dif_neg (by simp only [stackDepth]; omega))
  · exact (if_neg (hne 16 (by decide))).trans (dif_neg (by simp only [stackDepth]; omega))

/-- An instruction is its effect behind its check, but for the stop of 00EE and 2NNN with SP > 16. -/
theorem exec_eq_guarded {i : Instr} {s : State}
    (h : s.sp.toNat ≤ 16 ∨ ¬ (i = .ret ∨ ∃ nnn, i = .callNnn nnn)) :
    exec i s = guarded (instrFault i s) (encode i) s (effect i s) := by
  cases i
  case ret => exact exec_ret_eq_guarded (h.resolve_right (by simp))
  case callNnn nnn => exact exec_callNnn_eq_guarded nnn (h.resolve_right (by simp))
  case drwVxVyN x y n => rw [instrFault_drwVxVyN]; rfl
  case ldBVx x => rw [instrFault_ldBVx]; rfl
  case ldMemVx x => rw [instrFault_ldMemVx]; rfl
  case ldVxMem x => rw [instrFault_ldVxMem]; rfl
  case addIVx x => rw [exec_addIVx, State.setIndexFlag_eq_setRegs]; rfl
  all_goals rfl

/-- What a next state of an instruction can be: the start with its fault latched, or the effect. -/
theorem exec_next_cases {i : Instr} {s t : State} (h : exec i s = .next t) :
    (∃ k, instrFault i s = some k ∧ t = raise k (encode i) s) ∨ (instrFault i s = none ∧ t = effect i s) := by
  have hg : s.sp.toNat ≤ 16 ∨ ¬ (i = .ret ∨ ∃ nnn, i = .callNnn nnn) := by
    by_contra hn
    obtain ⟨hsp, hi⟩ := not_or.mp hn
    rw [exec_stops_beyond_stack (not_not.mp hi) (Nat.not_le.mp hsp)] at h
    cases h
  rw [exec_eq_guarded hg] at h
  rcases guarded_cases (instrFault i s) (encode i) s (effect i s) with ⟨hf, hnext⟩ | ⟨k, hf, hnext⟩
  · exact .inr ⟨hf, (Host.Outcome.next.inj (hnext.symm.trans h)).symm⟩
  · exact .inl ⟨k, hf, (Host.Outcome.next.inj (hnext.symm.trans h)).symm⟩

/-- An instruction that changes anything but the latch has had its effect. -/
theorem eq_effect_of_ne {α : Type} (f : State → α) (hf : ∀ s k op, f (raise k op s) = f s) {i : Instr} {s t : State}
    (h : exec i s = .next t) (hne : f t ≠ f s) : t = effect i s := by
  rcases exec_next_cases h with ⟨k, -, rfl⟩ | ⟨-, rfl⟩
  · exact absurd (hf s k _) hne
  · rfl

/-! ### What no effect writes -/

section
variable (i : Instr) (s : State)

@[simp] theorem effect_config : (effect i s).config = s.config := by cases i <;> rfl
@[simp] theorem effect_fault : (effect i s).fault = s.fault := by cases i <;> rfl
@[simp] theorem effect_key : (effect i s).key = s.key := by cases i <;> rfl
@[simp] theorem effect_inputs : (effect i s).inputs = s.inputs := by cases i <;> rfl

end

/-! ### Who writes each of the other fields -/

section
variable {i : Instr} {s : State}

theorem effect_fb_writer (h : (effect i s).fb ≠ s.fb) : i = .cls ∨ ∃ x y n, i = .drwVxVyN x y n := by
  cases i
  case cls => exact .inl rfl
  case drwVxVyN x y n => exact .inr ⟨x, y, n, rfl⟩
  all_goals exact absurd rfl h

theorem effect_i_writer (h : (effect i s).i ≠ s.i) :
    (∃ nnn, i = .ldINnn nnn) ∨ (∃ x, i = .addIVx x) ∨ ∃ x, i = .ldFVx x := by
  cases i
  case ldINnn nnn => exact .inl ⟨nnn, rfl⟩
  case addIVx x => exact .inr (.inl ⟨x, rfl⟩)
  case ldFVx x => exact .inr (.inr ⟨x, rfl⟩)
  all_goals exact absurd rfl h

theorem effect_stack_writer (h : (effect i s).sp ≠ s.sp ∨ (effect i s).stk ≠ s.stk) :
    i = .ret ∨ ∃ nnn, i = .callNnn nnn := by
  cases i
  case ret => exact .inl rfl
  case callNnn nnn => exact .inr ⟨nnn, rfl⟩
  all_goals exact h.elim (absurd rfl) (absurd rfl)

theorem effect_dt_writer (h : (effect i s).dt ≠ s.dt) : ∃ x, i = .ldDtVx x := by
  cases i
  case ldDtVx x => exact ⟨x, rfl⟩
  all_goals exact absurd rfl h

theorem effect_st_writer (h : (effect i s).st ≠ s.st) : ∃ x, i = .ldStVx x := by
  cases i
  case ldStVx x => exact ⟨x, rfl⟩
  all_goals exact absurd rfl h

theorem effect_wait_writer (h : (effect i s).wait ≠ s.wait ∨ (effect i s).klatch ≠ s.klatch) :
    ∃ x, i = .ldVxK x := by
  cases i
  case ldVxK x => exact ⟨x, rfl⟩
  all_goals exact h.elim (absurd rfl) (absurd rfl)

theorem effect_draws_cases (i : Instr) (s : State) :
    (effect i s).draws = s.draws ∨ ((effect i s).draws = s.draws + 1 ∧ ∃ x nn, i = .rndVxNn x nn) := by
  cases i
  case rndVxNn x nn => exact .inr ⟨rfl, x, nn, rfl⟩
  all_goals exact .inl rfl

/-- Memory after an instruction whose check passed: as before, or with bytes stored at I, above the protected part
and inside the space. -/
theorem effect_mem_cases (h : instrFault i s = none) :
    (effect i s).mem = s.mem ∨ ∃ bs : List Byte, progBase ≤ s.base ∧ s.base + bs.length ≤ memSize ∧
      (effect i s).mem = storeBytes s.config s.mem s.base bs := by
  cases i
  case ldBVx x =>
    rw [instrFault_ldBVx, checkWrite_eq_none] at h
    obtain ⟨hlo, hhi⟩ := h.resolve_left (by simp [decimalDigits])
    exact .inr ⟨_, hlo, hhi, rfl⟩
  case ldMemVx x =>
    rw [instrFault_ldMemVx, checkWrite_eq_none] at h
    obtain ⟨hlo, hhi⟩ := h.resolve_left (by simp [State.regsUpTo_length])
    exact .inr ⟨_, hlo, hhi, rfl⟩
  all_goals exact .inl rfl

/-- A register above the loaded ones keeps its value. -/
theorem regsFrom_loadBytes_above {s : State} {x r : Reg} (h : x < r) :
    (s.setRegs (regsFrom s.v 0 (loadBytes s.config s.mem s.base (x.val + 1)))).reg r = s.reg r := by
  have hlen : (loadBytes s.config s.mem s.base (x.val + 1)).length ≤ r.val - 0 := by
    simpa using Nat.succ_le_of_lt h
  rw [State.setRegs_reg, regsFrom_getElem _ _ _ _ r.isLt, List.getElem?_eq_none hlen]
  simp [State.reg]

theorem effect_vF_writer (h : (effect i s).reg vF ≠ s.reg vF) :
    (∃ x y, i = .addVxVy x y ∨ i = .subVxVy x y ∨ i = .shrVxVy x y ∨ i = .subnVxVy x y ∨ i = .shlVxVy x y) ∨
    (∃ x y n, i = .drwVxVyN x y n) ∨ (∃ x, i = .addIVx x ∧ s.config.indexOverflow = .on) ∨
    (∃ nn, i = .ldVxNn vF nn ∨ i = .addVxNn vF nn ∨ i = .rndVxNn vF nn) ∨
    (∃ y, i = .ldVxVy vF y ∨ i = .orVxVy vF y ∨ i = .andVxVy vF y ∨ i = .xorVxVy vF y) ∨
    i = .ldVxDt vF ∨ i = .ldVxMem vF := by
  cases i
  case addVxVy | subVxVy | shrVxVy | subnVxVy | shlVxVy | drwVxVyN => simp
  case ldVxNn x _ | addVxNn x _ | rndVxNn x _ | ldVxVy x _ | orVxVy x _ | andVxVy x _ | xorVxVy x _ | ldVxDt x =>
    change (s.setReg x _).reg vF ≠ s.reg vF at h
    have hx : vF = x := by
      by_contra hx
      exact h (by rw [State.setReg_reg, if_neg hx])
    simp [hx]
  case addIVx x =>
    cases ho : s.config.indexOverflow with
    | on => simp
    | off => exact absurd (by simp [effect, State.setIndexFlag, ho, State.reg]) h
  case ldVxMem x =>
    have hx : x = vF := by
      by_contra hx
      have hlt : x < vF := lt_of_le_of_ne (Fin.le_last x) hx
      exact h (regsFrom_loadBytes_above hlt)
    simp [hx]
  all_goals exact absurd rfl h

end

end Sys2Proof.Machine
end

section
/-! SUPPORT. Where an instruction and a poll leave PC, as numbers (10_state.md R35). -/

namespace Sys2Proof.Machine

theorem target_toNat (nnn : Addr) : (target nnn).toNat = nnn.toNat :=
  BitVec.toNat_setWidth_of_le (by decide)

/-- BNNN's sum fits 16 bits (10_state.md R36). -/
theorem State.targetV0_toNat (s : State) (nnn : Addr) : (s.targetV0 nnn).toNat = nnn.toNat + (s.reg 0).toNat := by
  have hb : (BitVec.setWidth 16 (s.reg 0)).toNat = (s.reg 0).toNat := BitVec.toNat_setWidth_of_le (by decide)
  rw [State.targetV0, BitVec.toNat_add, target_toNat, hb]
  omega

section
variable {s : State} (hp : s.Fetchable)
include hp

theorem State.npc_toNat : s.npc.toNat = s.pc.toNat + 2 := by
  simp only [State.Fetchable, memSize] at hp
  rw [State.npc]
  bv_omega

theorem skipIf_pc_toNat (c : Bool) :
    (skipIf c s).pc.toNat = if c = true then s.pc.toNat + 4 else s.pc.toNat + 2 := by
  have hnpc := State.npc_toNat hp
  simp only [State.Fetchable, memSize] at hp
  cases c with
  | false => exact hnpc
  | true =>
    rw [skipIf_eq, State.setPc_pc, if_pos rfl, if_pos rfl]
    bv_omega

theorem effect_pc_toNat (i : Instr) : (effect i s).pc.toNat = pcAfter i s := by
  cases i
  case seVxNn | sneVxNn | seVxVy | sneVxVy | skpVx | sknpVx =>
    simp [effect, pcAfter, skipIf_pc_toNat hp]
  case jpNnn nnn | callNnn nnn => exact target_toNat nnn
  case jpV0Nnn nnn => exact s.targetV0_toNat nnn
  case ret | ldVxK => rfl
  all_goals exact State.npc_toNat hp

end

end Sys2Proof.Machine
end
section
/-! SUPPORT. The invariant of the machine, kept by every instruction and every event. -/

namespace Sys2Proof.Machine

/-! ### What the invariant does not speak of, and single writes that keep it -/

/-- The invariant does not speak of the data registers, the timers, the display, the keys, the random draws and the
schedule. -/
theorem State.Inv.frame {s : State} (h : s.Inv) (v : Vector Byte 16) (dt st : Byte) (fb : Framebuffer)
    (key klatch : BitVec 16) (draws : Nat) (inputs : List Event) :
    { s with v, dt, st, fb, key, klatch, draws, inputs : State }.Inv :=
  ⟨h.memCanonical, h.lowMemory, h.indexRange, h.spRange, h.pcRange, h.slotRange, h.waitingAtKeyWait, h.haltedRecord⟩

theorem State.Inv.setInputs {s : State} (h : s.Inv) (es : List Event) : (s.setInputs es).Inv := h.frame ..

theorem State.Inv.tick {s : State} (h : s.Inv) : (tick s).Inv := h.frame ..

theorem State.Inv.setKey {s : State} (h : s.Inv) (k : Reg) (p : Bool) : (setKey k p s).Inv := h.frame ..

theorem State.Inv.setKlatch {s : State} (h : s.Inv) (k : BitVec 16) : (s.setKlatch k).Inv := h.frame ..

/-- Taking a fault keeps the invariant: the record names the PC and the depth that stand. -/
theorem State.Inv.raise {s : State} (h : s.Inv) (hw : s.wait = .none) (k : FaultKind) (op : Word) :
    (raise k op s).Inv where
  memCanonical := h.memCanonical
  lowMemory := h.lowMemory
  indexRange := h.indexRange
  spRange := h.spRange
  pcRange := h.pcRange
  slotRange := h.slotRange
  waitingAtKeyWait := h.waitingAtKeyWait
  haltedRecord := by
    rintro r hr
    cases hr
    exact ⟨hw, rfl, rfl⟩

/-- A poll keeps the invariant: it moves PC only as it ends the wait. -/
theorem State.Inv.keyWaitPoll {s : State} {x : Reg} (h : s.Inv) (hf : s.fault = none)
    (hw : s.wait = .awaitingKey x) : (keyWaitPoll x s).Inv := by
  cases hk : s.newKey with
  | none =>
    rw [keyWaitPoll_none x hk]
    exact h.setKlatch _
  | some k =>
    rw [keyWaitPoll_some x hk]
    obtain ⟨hfetch, -⟩ := h.waitingAtKeyWait x hw
    refine ⟨h.memCanonical, h.lowMemory, h.indexRange, h.spRange, ?_, h.slotRange, ?_, ?_⟩
    · show s.npc.toNat ≤ 0x10FE
      rw [State.npc_toNat hfetch]
      simp only [State.Fetchable, memSize] at hfetch
      omega
    · intro y hy
      cases hy
    · intro r hr
      cases hf.symm.trans hr

/-! ### The fields of the invariant after an effect -/

section
variable {i : Instr} {s : State}

theorem effect_mem_wf (hf : instrFault i s = none) (h : s.mem.wf s.config) :
    (effect i s).mem.wf (effect i s).config := by
  rw [effect_config]
  rcases effect_mem_cases hf with hm | ⟨bs, -, hhi, hm⟩
  · rwa [hm]
  · rw [hm]
    exact storeBytes_wf h hhi

theorem effect_mem_protected (hf : instrFault i s = none) (h : ∀ p ∈ s.mem, progBase ≤ p.1) :
    ∀ p ∈ (effect i s).mem, progBase ≤ p.1 := by
  intro p hp
  rcases effect_mem_cases hf with hm | ⟨bs, hlo, -, hm⟩
  · exact h p (hm ▸ hp)
  · rcases storeBytes_mem (hm ▸ hp) with hle | hp
    · exact hlo.trans hle
    · exact h p hp

theorem effect_i_le (h : s.i.toNat ≤ 0xFFF) : (effect i s).i.toNat ≤ 0xFFF := by
  cases i
  case ldINnn nnn =>
    show (target nnn).toNat ≤ 0xFFF
    rw [target_toNat]
    omega
  case addIVx x =>
    show (BitVec.ofNat 16 ((s.i.toNat + (s.reg x).toNat) % memSize)).toNat ≤ 0xFFF
    rw [BitVec.toNat_ofNat]
    simp only [memSize]
    omega
  case ldFVx x =>
    show (BitVec.ofNat 16 (fontBase + 5 * (s.lowNibble x).val)).toNat ≤ 0xFFF
    rw [BitVec.toNat_ofNat]
    exact (Nat.mod_le _ _).trans (by simp only [fontBase]; omega)
  all_goals exact h

theorem effect_sp_le (hf : instrFault i s = none) (h : s.sp.toNat ≤ stackDepth) :
    (effect i s).sp.toNat ≤ stackDepth := by
  cases i
  case ret =>
    have h0 : s.sp.toNat ≠ 0 := by simpa [instrFault] using hf
    show (s.sp - 1).toNat ≤ stackDepth
    simp only [stackDepth] at h ⊢
    bv_omega
  case callNnn nnn =>
    have h16 : s.sp.toNat ≠ 16 := by simpa [instrFault] using hf
    show (s.sp + 1).toNat ≤ stackDepth
    simp only [stackDepth] at h ⊢
    bv_omega
  all_goals exact h

theorem effect_slot_le (hp : s.Fetchable) (h : ∀ k, (s.slot k).toNat ≤ 0x1000) (k : Fin stackDepth) :
    ((effect i s).slot k).toNat ≤ 0x1000 := by
  cases i
  case callNnn nnn =>
    show ((s.setSlot (Fin.ofNat stackDepth s.sp.toNat) s.npc).slot k).toNat ≤ 0x1000
    rw [State.setSlot_slot]
    split
    · rw [State.npc_toNat hp]
      simp only [State.Fetchable, memSize] at hp
      omega
    · exact h k
  all_goals exact h k

theorem State.top_le (h : ∀ k, (s.slot k).toNat ≤ 0x1000) : s.top.toNat ≤ 0x1000 := by
  by_cases hlt : s.sp.toNat - 1 < stackDepth
  · rw [State.top_eq_slot s hlt]
    exact h _
  · simp [State.top, hlt]

/-- No instruction that does not fault leaves PC beyond 0x10FE (10_state.md R36). -/
theorem pcAfter_le (hp : s.Fetchable) (h : ∀ k, (s.slot k).toNat ≤ 0x1000) : pcAfter i s ≤ 0x10FE := by
  simp only [State.Fetchable, memSize] at hp
  cases i
  case seVxNn | sneVxNn | seVxVy | sneVxVy | skpVx | sknpVx =>
    simp only [pcAfter]
    split <;> omega
  case ret => exact (State.top_le h).trans (by decide)
  all_goals
    simp only [pcAfter]
    omega

/-- An instruction whose check passes keeps the invariant. -/
theorem State.Inv.effect (h : s.Inv) (hrun : s.Running) (hp : s.Fetchable) (hd : decodeWord s.wordAtPc = .ok i)
    (hf : instrFault i s = none) : (effect i s).Inv where
  memCanonical := effect_mem_wf hf h.memCanonical
  lowMemory := effect_mem_protected hf h.lowMemory
  indexRange := effect_i_le h.indexRange
  spRange := effect_sp_le hf h.spRange
  pcRange := by
    rw [effect_pc_toNat hp]
    exact pcAfter_le hp h.slotRange
  slotRange := effect_slot_le hp h.slotRange
  waitingAtKeyWait := by
    intro x hx
    have hne : (Machine.effect i s).wait ≠ s.wait := by simp [hx, hrun.2]
    obtain ⟨y, rfl⟩ := effect_wait_writer (.inl hne)
    cases hx
    exact ⟨hp, hd⟩
  haltedRecord := by
    intro r hr
    rw [effect_fault, hrun.1] at hr
    cases hr

end

/-! ### The core's step and the machine's step -/

theorem State.Inv.exec {i : Instr} {s t : State} (h : s.Inv) (hrun : s.Running) (hp : s.Fetchable)
    (hd : decodeWord s.wordAtPc = .ok i) (hstep : exec i s = .next t) : t.Inv := by
  rcases exec_next_cases hstep with ⟨k, -, rfl⟩ | ⟨hf, rfl⟩
  · exact h.raise hrun.2 k _
  · exact h.effect hrun hp hd hf

theorem State.Inv.coreStep {s t : State} (h : s.Inv) (hstep : coreStep s = .next t) : t.Inv := by
  rcases coreStep_cases s with ⟨r, -, hc⟩ | ⟨x, hf, hw, hc⟩ | ⟨hrun, -, hc⟩ | ⟨hrun, -, -, hc⟩ | ⟨i, hrun, hp, hd, hc⟩
  all_goals rw [hc] at hstep
  · cases hstep
    exact h
  · cases hstep
    exact h.keyWaitPoll hf hw
  · cases hstep
    exact h.raise hrun.2 _ _
  · cases hstep
    exact h.raise hrun.2 _ _
  · exact h.exec hrun hp hd hstep

/-- Settles O54: each kind of event keeps the invariant. -/
theorem stepKeepsTheInvariant : Obligations.StepKeepsTheInvariant := by
  intro s t h hstep
  have htaken : s.eventTaken.Inv := h.setInputs _
  rcases step_cases s with ⟨-, hs⟩ | ⟨-, hs⟩ | ⟨k, p, -, hs⟩ <;> rw [hs] at hstep
  · exact htaken.coreStep hstep
  · cases hstep
    exact htaken.tick
  · cases hstep
    exact htaken.setKey k p

end Sys2Proof.Machine
end

section
/-! SUPPORT. The settled statements about the state of the machine: PC, the snapshot, the input map, who writes what,
and reset. -/

namespace Sys2Proof.Machine

/-! ### PC (10_state.md R35) -/

theorem exec_pc_toNat {i : Instr} {s t : State} (hp : s.Fetchable) (h : exec i s = .next t) (hf : t.fault = none) :
    t.pc.toNat = pcAfter i s := by
  rcases exec_next_cases h with ⟨k, -, rfl⟩ | ⟨-, rfl⟩
  · cases hf
  · exact effect_pc_toNat hp i

theorem keyWaitPoll_pc {s : State} {x : Reg} (hw : s.wait = .awaitingKey x) (hp : s.Fetchable) :
    ((keyWaitPoll x s).wait ≠ .none → (keyWaitPoll x s).pc = s.pc) ∧
    ((keyWaitPoll x s).wait = .none → (keyWaitPoll x s).pc.toNat = s.pc.toNat + 2) := by
  cases hk : s.newKey with
  | none =>
    rw [keyWaitPoll_none x hk]
    exact ⟨fun _ => rfl, fun h => by cases hw.symm.trans h⟩
  | some k =>
    rw [keyWaitPoll_some x hk]
    exact ⟨fun h => absurd rfl h, fun _ => State.npc_toNat hp⟩

theorem coreStep_pc_of_fault {s t : State} (hrun : s.Running) (h : coreStep s = .next t) (hf : t.fault ≠ none) :
    t.pc = s.pc := by
  rcases coreStep_cases s with ⟨r, hr, -⟩ | ⟨x, -, hw, -⟩ | ⟨-, -, hc⟩ | ⟨-, -, -, hc⟩ | ⟨i, -, -, -, hc⟩
  · cases hrun.1.symm.trans hr
  · cases hrun.2.symm.trans hw
  · cases hc.symm.trans h
    rfl
  · cases hc.symm.trans h
    rfl
  · rcases exec_next_cases (hc.symm.trans h) with ⟨k, -, rfl⟩ | ⟨-, rfl⟩
    · rfl
    · exact absurd ((effect_fault i s).trans hrun.1) hf

/-- Settles O17: the effect's PC, the poll's, and that of a step that takes a fault. -/
theorem pcAfterEachInstruction : Obligations.PcAfterEachInstruction :=
  ⟨fun _ _ _ _ hp h hf => exec_pc_toNat hp h hf,
    fun _ _ hf hw hp => ⟨_, coreStep_waiting hf hw, keyWaitPoll_pc hw hp⟩,
    fun _ _ hrun h hf => coreStep_pc_of_fault hrun h hf⟩

/-! ### The snapshot (10_state.md R49) and the input map (R50) -/

/-- Settles O40: the quotient and remainder of 64·y + x by the width are y and x. -/
theorem snapshotIsRowMajor : Obligations.SnapshotIsRowMajor := by
  intro s
  refine ⟨by simp [State.snapshot, fbWidth, fbHeight], fun x y hx hy => ?_⟩
  have hlt : 64 * y + x < fbWidth * fbHeight := by simp only [fbWidth, fbHeight]; omega
  have hrow : (64 * y + x) / fbWidth = y := by simp only [fbWidth]; omega
  have hcol : (64 * y + x) % fbWidth = x := by simp only [fbWidth]; omega
  rw [State.snapshot, List.getElem?_map, List.getElem?_range hlt, Option.map_some, hrow, hcol]

theorem setKey_onlyChanges (k : Reg) (p : Bool) (s : State) (es : List Event) :
    OnlyChanges [.keys, .inputs] s (setKey k p (s.setInputs es)) := by
  intro part hpart
  cases part
  case keys | inputs => simp at hpart
  all_goals simp [Unchanged, setKey]

/-- Settles O44: the step performs the event, and `setKey` writes one key. -/
theorem setKeyWritesOneKey : Obligations.SetKeyWritesOneKey := by
  intro s k p rest hin
  refine ⟨setKey k p (s.setInputs rest), ?_, fun j => ?_, rfl, setKey_onlyChanges k p s rest⟩
  · simp only [step, hin, perform]
  · rw [setKey_keyDown, State.setInputs_keyDown]

/-! ### Who writes what -/

/-- Settles O48: only the effects of 00E0 and DXYN write the framebuffer. -/
theorem onlyClearAndDrawWriteTheFramebuffer : Obligations.OnlyClearAndDrawWriteTheFramebuffer := by
  intro i s t h hne
  obtain rfl := eq_effect_of_ne State.fb raise_fb h hne
  exact effect_fb_writer hne

/-- Settles O50, field by field from the writers of the effect. -/
theorem specialRegistersHaveTheirOnlyWriters : Obligations.SpecialRegistersHaveTheirOnlyWriters := by
  intro i s t h
  rcases exec_next_cases h with ⟨k, -, rfl⟩ | ⟨-, rfl⟩
  · simp
  · exact ⟨effect_i_writer, effect_stack_writer, effect_dt_writer, effect_st_writer⟩

/-- Settles O51, field by field from the writers of the effect. -/
theorem noInstructionWritesTheInputsOrTheProfile : Obligations.NoInstructionWritesTheInputsOrTheProfile := by
  intro i s t h
  rcases exec_next_cases h with ⟨k, -, rfl⟩ | ⟨-, rfl⟩
  · simp
  · exact ⟨effect_key i s, effect_config i s, effect_inputs i s, effect_wait_writer, effect_draws_cases i s⟩

/-- Settles O52: VF after the effect is VF before, but for a flag or a destination. -/
theorem vfChangesOnlyAsAFlagOrADestination : Obligations.VfChangesOnlyAsAFlagOrADestination := by
  intro i s t h hne
  obtain rfl := eq_effect_of_ne (·.reg vF) (fun s k op => raise_reg s k op vF) h hne
  exact effect_vF_writer hne

/-! ### Reset (10_state.md R54) -/

/-- The reset contents inside the font area. -/
theorem resetByte_font (c : Config) (j : Nat) (h : j < 80) : resetByte c (0x050 + j) = c.font[j] := by
  have hin : fontBase ≤ 0x050 + j ∧ 0x050 + j < fontBase + fontBytes := by
    simp only [fontBase, fontBytes]
    omega
  simp [resetByte, hin]

/-- The reset contents outside the font area. -/
theorem resetByte_of_not_font (c : Config) {a : Nat} (h : a < 0x050 ∨ 0x09F < a) : resetByte c a = 0 := by
  have hout : ¬ (fontBase ≤ a ∧ a < fontBase + fontBytes) := by
    simp only [fontBase, fontBytes]
    omega
  exact dif_neg hout

/-- Settles O57: construction lists no memory cell, so every byte reads as its reset contents. -/
theorem resetValuesAreThoseOfTheTable : Obligations.ResetValuesAreThoseOfTheTable := by
  intro c s
  have hbyte : ∀ a, s.byte a = resetByte c a := fun a => Memory.read_nil c a
  refine ⟨?regs, rfl, rfl, rfl, ?slots, rfl, rfl, rfl, ?cells, ?keys, ?sample, rfl, rfl, ?font, ?rest⟩
  case regs => exact fun r => Vector.getElem_replicate r.isLt
  case slots => exact fun k => Vector.getElem_replicate k.isLt
  case cells => exact fun y x => cell_blankFb y x
  case keys => exact fun k => BitVec.getLsbD_zero
  case sample => exact fun k => BitVec.getLsbD_zero
  case font => exact fun j hj => (hbyte _).trans (resetByte_font c j hj)
  case rest => exact fun a ha => (hbyte a).trans (resetByte_of_not_font c ha)

end Sys2Proof.Machine
end

section
/-! SUPPORT. The settled statements about memory: single reads and writes, the fetch, who writes memory, and what no
event changes. -/

namespace Sys2Proof.Machine

/-! ### Single accesses (20_memory.md R74, R75) and the fetch (R70) -/

/-- Settles O6: both outcomes of the checked read. -/
theorem readGivesTheByteOrTheBoundsFault : Obligations.ReadGivesTheByteOrTheBoundsFault :=
  fun _ _ => ⟨State.memRead_ok, State.memRead_error⟩

section
variable {s : State} {a : Nat} (v : Byte)

theorem State.memWrite_bounds (h : memSize ≤ a) : s.memWrite a v = .error .memoryBoundsFault :=
  if_pos h

theorem State.memWrite_protected (h : a < progBase) : s.memWrite a v = .error .writeProtectFault := by
  have hin : ¬ memSize ≤ a := Nat.not_le.mpr (h.trans (by decide))
  rw [State.memWrite, if_neg hin, if_pos h]

theorem State.memWrite_ok (hlo : progBase ≤ a) (hhi : a < memSize) :
    s.memWrite a v = .ok (s.setMem (s.mem.write s.config a v)) := by
  rw [State.memWrite, if_neg (Nat.not_le.mpr hhi), if_neg (Nat.not_lt.mpr hlo)]

end

theorem State.setMem_write_byte (s : State) (a b : Nat) (v : Byte) :
    (s.setMem (s.mem.write s.config a v)).byte b = if b = a then v else s.byte b :=
  Memory.read_write s.config s.mem a b v

theorem State.setMem_onlyChanges (s : State) (m : Memory) : OnlyChanges [.memory] s (s.setMem m) := by
  intro part hpart
  cases part
  case memory => simp at hpart
  all_goals simp [Unchanged]

/-- Settles O7: the two faults of the checked write, and the one byte it writes otherwise. -/
theorem writeChangesItsByteOrFaults : Obligations.WriteChangesItsByteOrFaults := by
  intro s a v
  refine ⟨State.memWrite_bounds v, State.memWrite_protected v, fun hlo hhi => ?_⟩
  refine ⟨_, State.memWrite_ok v hlo hhi, ?own, ?others, s.setMem_onlyChanges _⟩
  case own => rw [State.setMem_write_byte, if_pos rfl]
  case others => exact fun b hb => by rw [State.setMem_write_byte, if_neg hb]

theorem State.fetch_of_fetchable {s : State} (h : s.Fetchable) : s.fetch = .ok s.wordAtPc :=
  s.fetch_eq.trans (if_pos h)

/-- Settles O9: the fetched word is the word at PC, of which the byte at PC is the high one. -/
theorem fetchIsBigEndian : Obligations.FetchIsBigEndian :=
  fun _ hp => ⟨_, State.fetch_of_fetchable hp, wordOfBytes_toNat _ _⟩

/-! ### FX55 over the next instruction (20_memory.md R85) -/

theorem State.regsUpTo_getElem {s : State} {x r : Reg} (h : r.val < (s.regsUpTo x).length) :
    (s.regsUpTo x)[r.val] = s.reg r := by
  simp [State.regsUpTo, State.reg]

/-- FX55 leaves each register up to VX at its place from I on. -/
theorem effect_ldMemVx_byte {s : State} {x r : Reg} (h : r ≤ x) :
    (effect (.ldMemVx x) s).byte (s.base + r.val) = s.reg r := by
  have hlen : r.val < (s.regsUpTo x).length := by
    rw [State.regsUpTo_length]
    exact Nat.lt_succ_of_le h
  exact (storeBytes_read_inside hlen).trans (State.regsUpTo_getElem hlen)

/-- Settles O35: PC moves to I, where V0 and V1 have been stored inside the space. -/
theorem storeOverTheNextInstructionIsFetched : Obligations.StoreOverTheNextInstructionIsFetched := by
  intro s t x _ hx hi _ h hf
  rcases exec_next_cases h with ⟨k, -, rfl⟩ | ⟨hcheck, rfl⟩
  · cases hf
  have hpc : (effect (.ldMemVx x) s).pc.toNat = s.base := congrArg BitVec.toNat hi.symm
  have hfetch : (effect (.ldMemVx x) s).Fetchable := by
    rw [instrFault_ldMemVx, checkWrite_eq_none, State.regsUpTo_length] at hcheck
    rw [State.Fetchable, hpc]
    omega
  have hV0 : (effect (.ldMemVx x) s).byte s.base = s.reg 0 := effect_ldMemVx_byte (Fin.zero_le x)
  have hV1 : (effect (.ldMemVx x) s).byte (s.base + 1) = s.reg 1 := effect_ldMemVx_byte (r := 1) hx
  rw [State.fetch_of_fetchable hfetch, State.wordAtPc, hpc, hV0, hV1]

/-! ### Who writes memory (20_memory.md R72) -/

theorem effect_byte_writer {i : Instr} {s : State} {a : Nat} (h : (effect i s).byte a ≠ s.byte a) :
    (∃ x, i = .ldBVx x) ∨ ∃ x, i = .ldMemVx x := by
  cases i
  case ldBVx x => exact .inl ⟨x, rfl⟩
  case ldMemVx x => exact .inr ⟨x, rfl⟩
  all_goals exact absurd rfl h

/-- Settles O49: only the effects of FX33 and FX55 write a byte. -/
theorem onlyTwoInstructionsWriteMemory : Obligations.OnlyTwoInstructionsWriteMemory := by
  intro i s t a h hne
  obtain rfl := eq_effect_of_ne (·.byte a) (fun s k op => raise_byte s k op a) h hne
  exact effect_byte_writer hne

/-! ### What no event changes (20_memory.md R75, R78, 10_state.md R45) -/

/-- From `s` to `t` the configuration and the bytes below 0x200 read the same. -/
def LowKept (s t : State) : Prop := t.config = s.config ∧ ∀ a, a < progBase → t.byte a = s.byte a

/-- What writes neither memory nor the configuration keeps the low bytes. -/
theorem LowKept.of_mem {s t : State} (hc : t.config = s.config) (hm : t.mem = s.mem) : LowKept s t :=
  ⟨hc, fun a _ => by rw [State.byte, hc, hm, State.byte]⟩

theorem LowKept.effect {i : Instr} {s : State} (hf : instrFault i s = none) : LowKept s (effect i s) := by
  have hc := effect_config i s
  rcases effect_mem_cases hf with hm | ⟨bs, hlo, -, hm⟩
  · exact .of_mem hc hm
  · refine ⟨hc, fun a ha => ?_⟩
    rw [State.byte, hc, hm]
    exact storeBytes_read_outside (.inl (ha.trans_le hlo))

theorem LowKept.exec {i : Instr} {s t : State} (h : exec i s = .next t) : LowKept s t := by
  rcases exec_next_cases h with ⟨k, -, rfl⟩ | ⟨hf, rfl⟩
  · exact .of_mem rfl rfl
  · exact .effect hf

theorem LowKept.keyWaitPoll (x : Reg) (s : State) : LowKept s (keyWaitPoll x s) := by
  cases hk : s.newKey with
  | none =>
    rw [keyWaitPoll_none x hk]
    exact .of_mem rfl rfl
  | some k =>
    rw [keyWaitPoll_some x hk]
    exact .of_mem rfl rfl

theorem LowKept.coreStep {s t : State} (h : coreStep s = .next t) : LowKept s t := by
  rcases coreStep_cases s with ⟨r, -, hc⟩ | ⟨x, -, -, hc⟩ | ⟨-, -, hc⟩ | ⟨-, -, -, hc⟩ | ⟨i, -, -, -, hc⟩
  all_goals rw [hc] at h
  · cases h
    exact .of_mem rfl rfl
  · cases h
    exact .keyWaitPoll x s
  · cases h
    exact .of_mem rfl rfl
  · cases h
    exact .of_mem rfl rfl
  · exact .exec h

/-- Settles O53: a tick and a key event write neither memory nor the configuration, and the core's step keeps the low
bytes. -/
theorem lowMemoryAndProfileNeverChange : Obligations.LowMemoryAndProfileNeverChange := by
  intro s t h
  rcases step_cases s with ⟨-, hs⟩ | ⟨-, hs⟩ | ⟨k, p, -, hs⟩ <;> rw [hs] at h
  · have hcore : LowKept s.eventTaken t := .coreStep h
    exact hcore
  · cases h
    exact LowKept.of_mem (s := s) rfl rfl
  · cases h
    exact LowKept.of_mem (s := s) rfl rfl

end Sys2Proof.Machine
end

section
/-! SUPPORT. The settled statements about the encoding: the round trip both ways, the opcode map, and the words that
are no instruction. -/

namespace Sys2Proof

/-! ### Decoding an encoded instruction (30_encoding.md R101, R102, R103) -/

/-- The decision of R103 on the word of an instruction, format by format. -/
theorem decodeWord_encode (i : Instr) : decodeWord (encode i) = .ok i := by
  cases i with
  | cls | ret => rfl
  | jpNnn | callNnn | ldINnn | jpV0Nnn => simp [encode, decodeWord]
  | seVxNn | sneVxNn | ldVxNn | addVxNn | rndVxNn => simp [encode, decodeWord]
  | seVxVy | sneVxVy | drwVxVyN => simp [encode, decodeWord]
  | ldVxVy | orVxVy | andVxVy | xorVxVy | addVxVy | subVxVy | shrVxVy | subnVxVy | shlVxVy =>
    simp [encode, decodeWord, decodeAlu]
  | skpVx | sknpVx => simp [encode, decodeWord, decodeKey]
  | ldVxDt | ldVxK | ldDtVx | ldStVx | addIVx | ldFVx | ldBVx | ldMemVx | ldVxMem =>
    simp [encode, decodeWord, decodeMisc]

/-- Settles O1: the two bytes make the word again, and the word decodes to the instruction. -/
theorem decodeOfEncodeIsTheInstruction : Obligations.DecodeOfEncodeIsTheInstruction := by
  intro i rest _
  refine (decode_of_word (encode i) rest).trans ?_
  rw [decodeWord_encode]

/-! ### What the decoder can answer (30_encoding.md R103, R106, R107, R108) -/

/-- R108 lists the minor opcodes of family 0x8 that are unknown; R103 lists the others. -/
theorem unknownAluMinor_iff (op : Word) : op.toNat % 16 ∈ [0x8, 0x9, 0xA, 0xB, 0xC, 0xD, 0xF] ↔
    fieldN op ∉ [0x0#4, 0x1#4, 0x2#4, 0x3#4, 0x4#4, 0x5#4, 0x6#4, 0x7#4, 0xE#4] := by
  rw [← fieldN_toNat]
  generalize fieldN op = n
  revert n
  decide

/-- The unknown families of R108 in the fields that R103 decides by. -/
theorem unknownWord_iff_fields (op : Word) : Machine.UnknownWord op ↔
    (majorOf op = 0x0#4 ∧ op ≠ 0x00E0#16 ∧ op ≠ 0x00EE#16) ∨ (majorOf op = 0x5#4 ∧ fieldN op ≠ 0x0#4) ∨
    (majorOf op = 0x8#4 ∧ fieldN op ∉ [0x0#4, 0x1#4, 0x2#4, 0x3#4, 0x4#4, 0x5#4, 0x6#4, 0x7#4, 0xE#4]) ∨
    (majorOf op = 0x9#4 ∧ fieldN op ≠ 0x0#4) ∨ (majorOf op = 0xE#4 ∧ fieldNN op ∉ [0x9E#8, 0xA1#8]) ∨
    (majorOf op = 0xF#4 ∧ fieldNN op ∉
      [0x07#8, 0x0A#8, 0x15#8, 0x18#8, 0x1E#8, 0x29#8, 0x33#8, 0x55#8, 0x65#8]) := by
  rw [Machine.UnknownWord, unknownAluMinor_iff]
  simp [← BitVec.toNat_inj, majorOf_toNat, fieldN_toNat, fieldNN_toNat]

/-- An answer of the decoder on `op`: an instruction whose word is `op`, or, for an unknown word, the rejection by
name. -/
inductive DecodeAnswer (op : Word) : Except DecodeError Instr → Prop
  | instruction {i : Instr} (hword : encode i = op) (hknown : ¬ Machine.UnknownWord op) : DecodeAnswer op (.ok i)
  | rejected (hunknown : Machine.UnknownWord op) : DecodeAnswer op (.error (.unknownOpcode op))

section
variable {op : Word} {m n : Nibble} {nn : Byte}

theorem formatA_of_major (hm : majorOf op = m) : formatA m (fieldNNN op) = op :=
  hm ▸ formatA_of_fields op

theorem formatXI_of_major (hm : majorOf op = m) : formatXI m (fieldX op) (fieldNN op) = op :=
  hm ▸ formatXI_of_fields op

theorem formatXY_of_major (hm : majorOf op = m) : formatXY m (fieldX op) (fieldY op) (fieldN op) = op :=
  hm ▸ formatXY_of_fields op

theorem formatXY_of_minor (hm : majorOf op = m) (hn : fieldN op = n) :
    formatXY m (fieldX op) (fieldY op) n = op :=
  hn ▸ formatXY_of_major hm

theorem formatX_of_minor (hm : majorOf op = m) (hnn : fieldNN op = nn) : formatX m (fieldX op) nn = op :=
  hnn ▸ formatXI_of_major hm

theorem decodeAlu_answer (hm : majorOf op = 0x8#4) : DecodeAnswer op (decodeAlu op) := by
  unfold decodeAlu
  split
  case h_10 => exact .rejected (by simp_all [unknownWord_iff_fields])
  all_goals exact .instruction (formatXY_of_minor hm ‹_›) (by simp [unknownWord_iff_fields, *])

theorem decodeKey_answer (hm : majorOf op = 0xE#4) : DecodeAnswer op (decodeKey op) := by
  unfold decodeKey
  split
  case h_3 => exact .rejected (by simp_all [unknownWord_iff_fields])
  all_goals exact .instruction (formatX_of_minor hm ‹_›) (by simp [unknownWord_iff_fields, *])

theorem decodeMisc_answer (hm : majorOf op = 0xF#4) : DecodeAnswer op (decodeMisc op) := by
  unfold decodeMisc
  split
  case h_10 => exact .rejected (by simp_all [unknownWord_iff_fields])
  all_goals exact .instruction (formatX_of_minor hm ‹_›) (by simp [unknownWord_iff_fields, *])

end

/-- The decision of R103, family by family: arm `h_k` is the family of major opcode `k - 1`, and no nibble is left for
the last arm. -/
theorem decodeWord_answer (op : Word) : DecodeAnswer op (decodeWord op) := by
  unfold decodeWord
  split <;> rename_i hm
  case h_1 =>
    split
    · subst op
      exact .instruction rfl (by simp [Machine.UnknownWord])
    split
    · subst op
      exact .instruction rfl (by simp [Machine.UnknownWord])
    · exact .rejected (by simp [unknownWord_iff_fields, *])
  case h_6 | h_10 =>
    split
    · exact .instruction (formatXY_of_minor hm ‹_›) (by simp [unknownWord_iff_fields, *])
    · exact .rejected (by simp [unknownWord_iff_fields, *])
  case h_9 => exact decodeAlu_answer hm
  case h_15 => exact decodeKey_answer hm
  case h_16 => exact decodeMisc_answer hm
  case h_2 | h_3 | h_11 | h_12 =>
    exact .instruction (formatA_of_major hm) (by simp [unknownWord_iff_fields, hm])
  case h_4 | h_5 | h_7 | h_8 | h_13 =>
    exact .instruction (formatXI_of_major hm) (by simp [unknownWord_iff_fields, hm])
  case h_14 => exact .instruction (formatXY_of_major hm) (by simp [unknownWord_iff_fields, hm])
  case h_17 =>
    simp only [imp_false] at *
    bv_omega

/-- Settles O2: whatever the decoder answers as an instruction has the word it was given. -/
theorem encodeOfDecodedWordIsTheWord : Obligations.EncodeOfDecodedWordIsTheWord := by
  intro op i h
  have answer : DecodeAnswer op (.ok i) := h ▸ decodeWord_answer op
  cases answer with
  | instruction hword => exact hword

/-- Settles O4: a rejected word is unknown and an accepted one is not, so each kind of word gets its answer. -/
theorem unknownWordsAreRejectedByName : Obligations.UnknownWordsAreRejectedByName := by
  intro op
  have answer := decodeWord_answer op
  generalize decodeWord op = r at answer ⊢
  cases answer with
  | instruction hword hknown => exact ⟨fun h => absurd h hknown, fun _ => ⟨_, rfl⟩⟩
  | rejected hunknown => exact ⟨fun _ => rfl, fun h => absurd hunknown h⟩

/-! ### The opcode map (30_encoding.md R104) -/

/-- The word of every instruction matches its row. -/
theorem encode_and_mask (i : Instr) : encode i &&& i.row.1 = i.row.2 := by
  cases i with
  | cls | ret => rfl
  | jpNnn | callNnn | ldINnn | jpV0Nnn => exact formatA_mask ..
  | seVxNn | sneVxNn | ldVxNn | addVxNn | rndVxNn => exact formatXI_mask ..
  | seVxVy | sneVxVy | ldVxVy | orVxVy | andVxVy | xorVxVy | addVxVy | subVxVy | shrVxVy | subnVxVy | shlVxVy =>
    exact formatXY_mask ..
  | drwVxVyN => exact formatXYN_mask ..
  | skpVx | sknpVx | ldVxDt | ldVxK | ldDtVx | ldStVx | addIVx | ldFVx | ldBVx | ldMemVx | ldVxMem =>
    exact formatX_mask ..

section
variable {op word mask : Word} (h : op &&& mask = word &&& mask)
include h

/-- Words that agree under a mask agree in the bits that the mask keeps. -/
theorem extractLsb_eq_of_mask {hi lo : Nat} (hmask : mask.extractLsb hi lo = BitVec.allOnes _) :
    op.extractLsb hi lo = word.extractLsb hi lo := by
  have hfield := congrArg (·.extractLsb hi lo) h
  simpa only [BitVec.extractLsb_and, hmask, BitVec.and_allOnes] using hfield

theorem majorOf_eq_of_mask (hmask : majorOf mask = 0xF#4) : majorOf op = majorOf word :=
  extractLsb_eq_of_mask h hmask

theorem fieldN_eq_of_mask (hmask : fieldN mask = 0xF#4) : fieldN op = fieldN word :=
  extractLsb_eq_of_mask h hmask

theorem fieldNN_eq_of_mask (hmask : fieldNN mask = 0xFF#8) : fieldNN op = fieldNN word :=
  extractLsb_eq_of_mask h hmask

end

/-- A word that agrees with a row decodes to an instruction of that row: it has the fields that R103 decides by in
common with the encoding of the row's instruction. -/
theorem decodeWord_of_row {op : Word} (i : Instr) (hrow : op &&& i.row.1 = i.row.2) :
    ∃ j, decodeWord op = .ok j ∧ j.row = i.row := by
  have h : op &&& i.row.1 = encode i &&& i.row.1 := hrow.trans (encode_and_mask i).symm
  have hm : majorOf op = majorOf (encode i) := majorOf_eq_of_mask h (by cases i <;> simp [Instr.row, majorOf])
  cases i with
  | cls | ret =>
    obtain rfl : op = _ := BitVec.and_allOnes.symm.trans hrow
    exact ⟨_, rfl, rfl⟩
  | jpNnn | callNnn | ldINnn | jpV0Nnn | seVxNn | sneVxNn | ldVxNn | addVxNn | rndVxNn | drwVxVyN =>
    simp [decodeWord, hm, encode, Instr.row]
  | seVxVy | sneVxVy =>
    have hn := fieldN_eq_of_mask h (by simp [Instr.row, fieldN])
    simp [decodeWord, hm, hn, encode, Instr.row]
  | ldVxVy | orVxVy | andVxVy | xorVxVy | addVxVy | subVxVy | shrVxVy | subnVxVy | shlVxVy =>
    have hn := fieldN_eq_of_mask h (by simp [Instr.row, fieldN])
    simp [decodeWord, decodeAlu, hm, hn, encode, Instr.row]
  | skpVx | sknpVx =>
    have hnn := fieldNN_eq_of_mask h (by simp [Instr.row, fieldNN])
    simp [decodeWord, decodeKey, hm, hnn, encode, Instr.row]
  | ldVxDt | ldVxK | ldDtVx | ldStVx | addIVx | ldFVx | ldBVx | ldMemVx | ldVxMem =>
    have hnn := fieldNN_eq_of_mask h (by simp [Instr.row, fieldNN])
    simp [decodeWord, decodeMisc, hm, hnn, encode, Instr.row]

/-- Settles O3: a decoded word is the word of its instruction, which matches its row; and two rows of one word are
both the row of what the word decodes to. -/
theorem wordDecodesIffItMatchesARow : Obligations.WordDecodesIffItMatchesARow := by
  refine ⟨fun op i h => ?_, fun op i => decodeWord_of_row i, fun op i j hi hj => ?_⟩
  · rw [← encodeOfDecodedWordIsTheWord op i h]
    exact encode_and_mask i
  · obtain ⟨k, hk, hki⟩ := decodeWord_of_row i hi
    obtain ⟨l, hl, hlj⟩ := decodeWord_of_row j hj
    obtain rfl : k = l := Except.ok.inj (hk.symm.trans hl)
    exact hki.symm.trans hlj

/-! ### Words of the opcode table -/

/-- Settles O5: the decoder runs on each of the written words. -/
theorem sampleWordsDecodeAsTheTableSays : Obligations.SampleWordsDecodeAsTheTableSays := by
  unfold Obligations.SampleWordsDecodeAsTheTableSays
  decide

end Sys2Proof
end

section
/-! SUPPORT. Frames: how the frame of an instruction is put together from those of its single writes. -/

namespace Sys2Proof.Machine

section
variable {s t u : State} {ps qs : List Part}

theorem Unchanged.trans {p : Part} (h₁ : Unchanged p s t) (h₂ : Unchanged p t u) : Unchanged p s u := by
  cases p
  case config | index | pc | delay | sound | waiting | latch | draws | inputs => exact Eq.trans h₂ h₁
  case stack => exact ⟨h₂.1.trans h₁.1, fun k => (h₂.2 k).trans (h₁.2 k)⟩
  case regs | memory | keys | keyLatch => exact fun j => (h₂ j).trans (h₁ j)
  case display => exact fun y x => (h₂ y x).trans (h₁ y x)

theorem OnlyChanges.trans (h₁ : OnlyChanges ps s t) (h₂ : OnlyChanges ps t u) : OnlyChanges ps s u :=
  fun p hp => (h₁ p hp).trans (h₂ p hp)

theorem OnlyChanges.mono (h : OnlyChanges ps s t) (hsub : ps ⊆ qs) : OnlyChanges qs s t :=
  fun p hp => h p fun hmem => hp (hsub hmem)

end

section
variable (s : State)

theorem raise_onlyChanges (k : FaultKind) (op : Word) : OnlyChanges [.latch] s (raise k op s) := by
  intro part hpart
  cases part
  case latch => simp at hpart
  all_goals simp [Unchanged]

theorem State.setPc_onlyChanges (w : Word) : OnlyChanges [.pc] s (s.setPc w) := by
  intro part hpart
  cases part
  case pc => simp at hpart
  all_goals simp [Unchanged]

theorem State.setSp_onlyChanges (b : Byte) : OnlyChanges [.stack] s (s.setSp b) := by
  intro part hpart
  cases part
  case stack => simp at hpart
  all_goals simp [Unchanged]

theorem State.setSlot_onlyChanges (k : Fin stackDepth) (w : Word) : OnlyChanges [.stack] s (s.setSlot k w) := by
  intro part hpart
  cases part
  case stack => simp at hpart
  all_goals simp [Unchanged]

/-- The two writes of 00EE that pops, with which 2NNN ends too. -/
theorem State.setSp_setPc_onlyChanges (b : Byte) (w : Word) : OnlyChanges [.pc, .stack] s ((s.setSp b).setPc w) :=
  ((s.setSp_onlyChanges b).mono (by simp)).trans (((s.setSp b).setPc_onlyChanges w).mono (by simp))

/-- The three writes of 2NNN with a free slot. -/
theorem State.push_onlyChanges (k : Fin stackDepth) (a : Word) (b : Byte) (w : Word) :
    OnlyChanges [.pc, .stack] s (((s.setSlot k a).setSp b).setPc w) :=
  ((s.setSlot_onlyChanges k a).mono (by simp)).trans ((s.setSlot k a).setSp_setPc_onlyChanges b w)

end

end Sys2Proof.Machine
end

section
/-! SUPPORT. The settled statements about the core's cycle (40_cycle_flow.md R130, R131, R133) and about control
transfer (R135 to R139). -/

namespace Sys2Proof.Machine

/-! ### The cycle (40_cycle_flow.md R130, R131, R133) -/

section
variable {s : State} (hrun : s.Running)
include hrun

theorem coreStep_of_decoded {i : Instr} (hp : s.Fetchable) (hd : decodeWord s.wordAtPc = .ok i) :
    coreStep s = exec i s := by
  refine (coreStep_running hrun).trans ((if_pos hp).trans ?_)
  rw [executeWord, hd]

theorem coreStep_of_not_fetchable (hp : ¬ s.Fetchable) : coreStep s = .next (raise .memoryBoundsFault 0 s) :=
  (coreStep_running hrun).trans (if_neg hp)

end

/-- Settles O10: taking the event off the schedule leaves PC, memory, the latch and the wait as they were, so the core
steps on the same word. -/
theorem stepRunsTheDecodedInstruction : Obligations.StepRunsTheDecodedInstruction := by
  intro s i hnext hrun hp hd
  have hcore : coreStep s.eventTaken = exec i s.eventTaken := coreStep_of_decoded (s := s.eventTaken) hrun hp hd
  exact (step_of_coreNext hnext).trans hcore

/-- Settles O11: the core's step keeps a latched record, which is the step's result. -/
theorem haltedStepChangesNothing : Obligations.HaltedStepChangesNothing :=
  fun s r hf => ⟨coreStep_halted hf, by rw [State.stepResult, hf]⟩

/-- Settles O13: from PC = 0xFFF on there is no byte at PC + 1, so the fetch fails. -/
theorem fetchBeyondMemoryFaults : Obligations.FetchBeyondMemoryFaults := by
  intro s hrun hpc
  have hp : ¬ s.Fetchable := by
    simp only [State.Fetchable, memSize]
    omega
  exact ⟨_, coreStep_of_not_fetchable hrun hp, raise_fault .., raise_onlyChanges _ _ _⟩

/-! ### Jumps (40_cycle_flow.md R136, R138) -/

/-- Settles O18: both jumps are one write of PC. -/
theorem jumpsWritePc : Obligations.JumpsWritePc :=
  fun s nnn => ⟨⟨_, exec_jpNnn s nnn, target_toNat nnn, s.setPc_onlyChanges _⟩,
    ⟨_, exec_jpV0Nnn s nnn, s.targetV0_toNat nnn, s.setPc_onlyChanges _⟩⟩

/-! ### Call and return (40_cycle_flow.md R135, R137, R139) -/

/-- Settles O19: the push on a free slot, the overflow on a full stack. -/
theorem callPushesTheNextAddress : Obligations.CallPushesTheNextAddress := by
  intro s nnn
  constructor
  · intro hfree
    refine ⟨_, exec_callNnn_push s nnn hfree, target_toNat nnn, ?depth, fun k => ?slot, s.push_onlyChanges _ _ _ _⟩
    case depth =>
      rw [State.setPc_sp, State.setSp_sp]
      bv_omega
    case slot =>
      rw [State.setPc_slot, State.setSp_slot, State.setSlot_slot]
      exact if_congr Fin.ext_iff rfl rfl
  · intro hfull
    have hsp : s.sp = 16 := BitVec.eq_of_toNat_eq hfull
    exact ⟨_, exec_callNnn_full s nnn hsp, by rw [raise_fault, hsp], raise_onlyChanges _ _ _⟩

/-- 00EE pops the slot `k` that is the last live one. -/
theorem exec_ret_of_last {s : State} {k : Fin stackDepth} (hk : s.sp.toNat = k.val + 1) :
    exec .ret s = .next ((s.setSp (s.sp - 1)).setPc (s.slot k)) := by
  have hne : s.sp ≠ 0 := fun h0 => by simp [h0] at hk
  have hlast : s.sp.toNat - 1 = k.val := by omega
  have hlt : s.sp.toNat - 1 < stackDepth := hlast ▸ k.isLt
  have hslot : (⟨s.sp.toNat - 1, hlt⟩ : Fin stackDepth) = k := Fin.ext hlast
  rw [exec_ret_pop s hne hlt, hslot]

/-- Settles O20: the pop of the last live slot, the underflow on an empty stack. -/
theorem returnPopsTheLastAddress : Obligations.ReturnPopsTheLastAddress := by
  intro s
  constructor
  · intro k hk
    refine ⟨_, exec_ret_of_last hk, State.setPc_pc .., ?depth, fun j => ?slot, s.setSp_setPc_onlyChanges _ _⟩
    case depth =>
      rw [State.setPc_sp, State.setSp_sp]
      bv_omega
    case slot => rw [State.setPc_slot, State.setSp_slot]
  · intro hempty
    have hsp : s.sp = 0 := BitVec.eq_of_toNat_eq hempty
    exact ⟨_, exec_ret_empty s hsp, by rw [raise_fault, hsp]; rfl, raise_onlyChanges _ _ _⟩

/-- Settles O21: the return pops the slot that the call pushed, whatever else has changed in between. -/
theorem returnFollowsTheCall : Obligations.ReturnFollowsTheCall := by
  intro s t u nnn hfree hcall hsp hslot
  obtain ⟨t', hcall', -, hdepth, hpush, -⟩ := (callPushesTheNextAddress s nnn).1 hfree
  obtain rfl : t' = t := Host.Outcome.next.inj (hcall'.symm.trans hcall)
  obtain ⟨w, hret, hpc, hdepth', -⟩ := (returnPopsTheLastAddress u).1 ⟨s.sp.toNat, hfree⟩ (by rw [hsp, hdepth])
  refine ⟨w, hret, ?_, BitVec.eq_of_toNat_eq hdepth'⟩
  rw [hpc, hslot _ rfl, hpush, if_pos rfl]

end Sys2Proof.Machine
end

section
/-! SUPPORT. What a skip leaves (41_skip.md R150), for the conditions that compare two bytes. -/

namespace Sys2Proof.Machine

variable (s : State)

theorem skipIf_onlyChanges (c : Bool) : OnlyChanges [.pc] s (skipIf c s) :=
  s.setPc_onlyChanges _

/-- PC after a skip, as a word: the sum wraps, so PC needs no bound. -/
theorem skipIf_pc (c : Bool) : (skipIf c s).pc = if c = true then s.pc + 4 else s.pc + 2 := by
  cases c with
  | false => rfl
  | true =>
    show s.pc + 2 + 2 = s.pc + 4
    exact BitVec.add_assoc ..

theorem skipIf_beq_pc (a b : Byte) : (skipIf (a == b) s).pc = if a = b then s.pc + 4 else s.pc + 2 :=
  (skipIf_pc ..).trans (if_congr beq_iff_eq rfl rfl)

theorem skipIf_bne_pc (a b : Byte) : (skipIf (a != b) s).pc = if a = b then s.pc + 2 else s.pc + 4 :=
  (skipIf_pc ..).trans ((if_congr bne_iff_ne rfl rfl).trans (ite_not ..))

end Sys2Proof.Machine
end

section
/-! SUPPORT. The settled statement about the skips of two operands. -/

namespace Sys2Proof.Machine

/-! ### Skips (41_skip.md R151 to R154) -/

/-- Settles O23: each of the four is one skip, on an equality or on its complement. -/
theorem skipsCompareAndMovePc : Obligations.SkipsCompareAndMovePc :=
  fun s x y nn =>
    ⟨⟨_, exec_seVxNn s x nn, skipIf_beq_pc .., skipIf_onlyChanges _ _⟩,
      ⟨_, exec_sneVxNn s x nn, skipIf_bne_pc .., skipIf_onlyChanges _ _⟩,
      ⟨_, exec_seVxVy s x y, skipIf_beq_pc .., skipIf_onlyChanges _ _⟩,
      ⟨_, exec_sneVxVy s x y, skipIf_bne_pc .., skipIf_onlyChanges _ _⟩⟩

end Sys2Proof.Machine
end

section
/-! SUPPORT. What an instruction that writes data registers and advances leaves unchanged: one written register, or a
result and its flag (42_load_alu.md R173). -/

namespace Sys2Proof.Machine

section
variable (s : State) (x : Reg) (b : Byte) (f : Bool)

theorem State.setReg_onlyChanges : OnlyChanges [.regs] s (s.setReg x b) := by
  intro part hpart
  cases part
  case regs => simp at hpart
  all_goals simp [Unchanged]

theorem State.setReg_regsOnly : RegsOnly [x] s (s.setReg x b) :=
  fun r hr => (s.setReg_reg x r b).trans (if_neg (List.ne_of_not_mem_cons hr))

theorem State.setResultFlag_onlyChanges : OnlyChanges [.regs] s (s.setResultFlag x b f) :=
  (s.setReg_onlyChanges x b).trans ((s.setReg x b).setReg_onlyChanges vF (flagByte f))

theorem State.setResultFlag_regsOnly : RegsOnly [x, vF] s (s.setResultFlag x b f) := by
  intro r hr
  have hx : r ≠ x := List.ne_of_not_mem_cons hr
  have hv : r ≠ vF := List.ne_of_not_mem_cons (List.not_mem_of_not_mem_cons hr)
  rw [State.setResultFlag_reg, if_neg hv, if_neg hx]

end

/-- The advance adds PC to what writes of data registers change. -/
theorem RegsOnly.advance_frame {rs : List Reg} {s t : State} (hr : RegsOnly rs s t) (h : OnlyChanges [.regs] s t) :
    t.advance.pc = s.pc + 2 ∧ RegsOnly rs s t.advance ∧ OnlyChanges [.regs, .pc] s t.advance := by
  have hpc : t.pc = s.pc := h .pc (by decide)
  refine ⟨?pc, hr, ?frame⟩
  case pc => rw [State.advance_pc, State.npc, hpc]
  case frame => exact (h.mono (by simp)).trans ((t.setPc_onlyChanges t.npc).mono (by simp))

section
variable (s : State) (x : Reg) (b : Byte) (f : Bool)

theorem State.setReg_advance_frame : (s.setReg x b).advance.pc = s.pc + 2 ∧
    RegsOnly [x] s (s.setReg x b).advance ∧ OnlyChanges [.regs, .pc] s (s.setReg x b).advance :=
  (s.setReg_regsOnly x b).advance_frame (s.setReg_onlyChanges x b)

theorem State.setResultFlag_advance_frame : (s.setResultFlag x b f).advance.pc = s.pc + 2 ∧
    RegsOnly [x, vF] s (s.setResultFlag x b f).advance ∧
    OnlyChanges [.regs, .pc] s (s.setResultFlag x b f).advance :=
  (s.setResultFlag_regsOnly x b f).advance_frame (s.setResultFlag_onlyChanges x b f)

/-! ### The registers that are written -/

theorem State.setReg_advance_reg_same : (s.setReg x b).advance.reg x = b :=
  (s.setReg_reg x x b).trans (if_pos rfl)

theorem State.setResultFlag_advance_vF : (s.setResultFlag x b f).advance.reg vF = flagByte f :=
  (s.setResultFlag_reg x vF b f).trans (if_pos rfl)

theorem State.setResultFlag_advance_result (h : x ≠ vF) : (s.setResultFlag x b f).advance.reg x = b :=
  (s.setResultFlag_reg x x b f).trans ((if_neg h).trans (if_pos rfl))

end

end Sys2Proof.Machine
end

section
/-! SUPPORT. The flags and the results of the arithmetic as numbers (42_load_alu.md R166 to R172). -/

namespace Sys2Proof.Machine

section
variable (a b : Byte)

theorem flagByte_toNat (f : Bool) : (flagByte f).toNat = f.toNat := by
  cases f <;> rfl

theorem flagByte_carry : flagByte (carry a b) = if 255 < a.toNat + b.toNat then 1 else 0 :=
  if_congr decide_eq_true_iff rfl rfl

theorem flagByte_noBorrow : flagByte (noBorrow a b) = if b.toNat ≤ a.toNat then 1 else 0 :=
  if_congr decide_eq_true_iff rfl rfl

theorem flagByte_shiftedOutRight_toNat : (flagByte (shiftedOutRight b)).toNat = b.toNat % 2 := by
  have hbit : (b.toNat.testBit 0).toNat = b.toNat / 2 ^ 0 % 2 := Nat.toNat_testBit ..
  rw [flagByte_toNat, shiftedOutRight, ← BitVec.testBit_toNat, hbit, pow_zero, Nat.div_one]

theorem flagByte_shiftedOutLeft_toNat : (flagByte (shiftedOutLeft b)).toNat = b.toNat / 128 := by
  have hbit : (b.toNat.testBit 7).toNat = b.toNat / 2 ^ 7 % 2 := Nat.toNat_testBit ..
  rw [flagByte_toNat, shiftedOutLeft, ← BitVec.testBit_toNat, hbit]
  omega

/-- A difference of bytes, with the 256 that keeps it from going below 0 added first. -/
theorem byte_sub_toNat : (a - b).toNat = (a.toNat + 256 - b.toNat) % 256 := by
  bv_omega

theorem byte_shiftRight_one_toNat : (b >>> 1).toNat = b.toNat / 2 := by
  rw [BitVec.toNat_ushiftRight, Nat.shiftRight_eq_div_pow, pow_one]

theorem byte_shiftLeft_one_toNat : (b <<< 1).toNat = 2 * b.toNat % 256 := by
  rw [BitVec.toNat_shiftLeft, Nat.shiftLeft_eq, pow_one, Nat.mul_comm]

end

/-- The shift source is the byte that the profile names (42_load_alu.md R170). -/
theorem State.eq_shiftOperand {s : State} {x y : Reg} {b : Byte} (hvx : s.config.shiftSource = .vx → b = s.reg x)
    (hvy : s.config.shiftSource = .vy → b = s.reg y) : b = s.shiftOperand x y := by
  unfold State.shiftOperand
  split
  · next h => exact hvx h
  · next h => exact hvy h

end Sys2Proof.Machine
end

section
/-! SUPPORT. The settled statements about register load and arithmetic-logic (42_load_alu.md). -/

namespace Sys2Proof.Machine

/-! ### One register written (42_load_alu.md R160 to R165) -/

/-- Settles O25: each is one register write and the advance. -/
theorem loadsAndImmediateAddWriteVx : Obligations.LoadsAndImmediateAddWriteVx := by
  intro s x y nn
  have hsum : ((s.setReg x (s.reg x + nn)).advance.reg x).toNat = ((s.reg x).toNat + nn.toNat) % 256 := by
    rw [State.setReg_advance_reg_same, BitVec.toNat_add]
  exact ⟨⟨_, exec_ldVxNn s x nn, s.setReg_advance_reg_same .., s.setReg_advance_frame ..⟩,
    ⟨_, exec_addVxNn s x nn, hsum, s.setReg_advance_frame ..⟩,
    ⟨_, exec_ldVxVy s x y, s.setReg_advance_reg_same .., s.setReg_advance_frame ..⟩⟩

/-- Settles O26: each is one register write and the advance, and a bit of the byte written is that of the two bytes. -/
theorem logicIsBitwiseAndLeavesTheFlag : Obligations.LogicIsBitwiseAndLeavesTheFlag := by
  intro s x y
  refine ⟨⟨_, exec_orVxVy s x y, fun j _ => ?or, s.setReg_advance_frame ..⟩,
    ⟨_, exec_andVxVy s x y, fun j _ => ?and, s.setReg_advance_frame ..⟩,
    ⟨_, exec_xorVxVy s x y, fun j _ => ?xor, s.setReg_advance_frame ..⟩⟩
  case or => rw [State.setReg_advance_reg_same, BitVec.getLsbD_or]
  case and => rw [State.setReg_advance_reg_same, BitVec.getLsbD_and]
  case xor => rw [State.setReg_advance_reg_same, BitVec.getLsbD_xor]

/-! ### A result and its flag (42_load_alu.md R166 to R171, R173) -/

/-- Settles O27: the result is the sum of the bytes, the flag the carry. -/
theorem addRecordsTheCarry : Obligations.AddRecordsTheCarry := by
  intro s x y
  refine ⟨_, exec_addVxVy s x y, fun hx => ?sum, ?carry, s.setResultFlag_advance_frame ..⟩
  case sum => rw [State.setResultFlag_advance_result (h := hx), BitVec.toNat_add]
  case carry => rw [State.setResultFlag_advance_vF, flagByte_carry]

/-- What a subtraction with its flag leaves, whichever register holds the minuend. -/
theorem State.setResultFlag_sub_advance (s : State) (x : Reg) (a b : Byte) :
    (x ≠ vF → ((s.setResultFlag x (a - b) (noBorrow a b)).advance.reg x).toNat = (a.toNat + 256 - b.toNat) % 256) ∧
    (s.setResultFlag x (a - b) (noBorrow a b)).advance.reg vF = if b.toNat ≤ a.toNat then 1 else 0 := by
  constructor
  · intro hx
    rw [State.setResultFlag_advance_result (h := hx), byte_sub_toNat]
  · rw [State.setResultFlag_advance_vF, flagByte_noBorrow]

/-- Settles O28: the two differ in which register holds the minuend. -/
theorem subtractionsRecordNoBorrow : Obligations.SubtractionsRecordNoBorrow := by
  intro s x y
  obtain ⟨hsub, hsubFlag⟩ := s.setResultFlag_sub_advance x (s.reg x) (s.reg y)
  obtain ⟨hsubn, hsubnFlag⟩ := s.setResultFlag_sub_advance x (s.reg y) (s.reg x)
  exact ⟨⟨_, exec_subVxVy s x y, hsub, hsubFlag, s.setResultFlag_advance_frame ..⟩,
    ⟨_, exec_subnVxVy s x y, hsubn, hsubnFlag, s.setResultFlag_advance_frame ..⟩⟩

/-- Settles O29: with the source named by the profile as its operand, a shift is a result and its flag. -/
theorem shiftsRecordTheBitShiftedOut : Obligations.ShiftsRecordTheBitShiftedOut := by
  intro s x y b hvx hvy
  obtain rfl : b = s.shiftOperand x y := State.eq_shiftOperand hvx hvy
  refine ⟨⟨_, exec_shrVxVy s x y, fun hx => ?half, ?bit0, s.setResultFlag_advance_frame ..⟩,
    ⟨_, exec_shlVxVy s x y, fun hx => ?double, ?bit7, s.setResultFlag_advance_frame ..⟩⟩
  case half => rw [State.setResultFlag_advance_result (h := hx), byte_shiftRight_one_toNat]
  case bit0 => rw [State.setResultFlag_advance_vF, flagByte_shiftedOutRight_toNat]
  case double => rw [State.setResultFlag_advance_result (h := hx), byte_shiftLeft_one_toNat]
  case bit7 => rw [State.setResultFlag_advance_vF, flagByte_shiftedOutLeft_toNat]

end Sys2Proof.Machine
end

section
/-! SUPPORT. What the single writes of the index and memory instructions and the advance after them leave, and what an
instruction that writes neither SP nor the stack answers, by its check. -/

namespace Sys2Proof.Machine

/-! ### Frames -/

/-- The advance adds PC to what is changed before it. -/
theorem OnlyChanges.advance_frame {ps : List Part} {s t : State} (h : OnlyChanges ps s t) (hpc : Part.pc ∉ ps) :
    t.advance.pc = s.pc + 2 ∧ OnlyChanges (ps ++ [.pc]) s t.advance := by
  have hkept : t.pc = s.pc := h .pc hpc
  refine ⟨?pc, ?frame⟩
  case pc => rw [State.advance_pc, State.npc, hkept]
  case frame =>
    exact (h.mono (List.subset_append_left ..)).trans
      ((t.setPc_onlyChanges t.npc).mono (List.subset_append_right ..))

section
variable (s : State)

theorem State.setI_onlyChanges (w : Word) : OnlyChanges [.index] s (s.setI w) := by
  intro part hpart
  cases part
  case index => simp at hpart
  all_goals simp [Unchanged]

theorem State.setRegs_onlyChanges (v : Vector Byte 16) : OnlyChanges [.regs] s (s.setRegs v) := by
  intro part hpart
  cases part
  case regs => simp at hpart
  all_goals simp [Unchanged]

end

/-! ### The outcome by the check -/

section
variable {i : Instr} {s : State} (hi : ¬ (i = .ret ∨ ∃ nnn, i = .callNnn nnn))
include hi

theorem exec_of_instrFault_none (h : instrFault i s = none) : exec i s = .next (effect i s) := by
  rw [exec_eq_guarded (.inr hi), h, guarded_none]

/-- An instruction whose check fails sets the latch and nothing else (60_exceptions.md R245, R246). -/
theorem exec_of_instrFault_some {k : FaultKind} (h : instrFault i s = some k) :
    ∃ t, exec i s = .next t ∧ OnlyChanges [.latch] s t ∧
      t.fault = some { kind := k, opcode := encode i, pc := s.pc, depth := s.sp } := by
  refine ⟨raise k (encode i) s, ?_, raise_onlyChanges _ _ _, raise_fault ..⟩
  rw [exec_eq_guarded (.inr hi), h, guarded_some]

end

/-! ### The index register (43_index_memory.md R181, R182) -/

theorem glyphAddr_toNat (d : Reg) : (glyphAddr d).toNat = fontBase + 5 * d.val := by
  have hd : d.val < 16 := d.isLt
  exact (BitVec.toNat_ofNat ..).trans (Nat.mod_eq_of_lt (by simp only [fontBase]; omega))

theorem index_mod_memSize_toNat (n : Nat) : (BitVec.ofNat 16 (n % memSize)).toNat = n % 4096 :=
  (BitVec.toNat_ofNat ..).trans (Nat.mod_eq_of_lt ((Nat.mod_lt n (by decide)).trans (by decide)))

theorem flagByte_indexOverflow (i : Word) (b : Byte) :
    flagByte (indexOverflow i b) = if 0xFFF < i.toNat + b.toNat then 1 else 0 :=
  if_congr decide_eq_true_iff rfl rfl

theorem State.setIndexFlag_off {s : State} (f : Bool) (h : s.config.indexOverflow = .off) : s.setIndexFlag f = s := by
  rw [State.setIndexFlag, h]

theorem State.setIndexFlag_on {s : State} (f : Bool) (h : s.config.indexOverflow = .on) :
    s.setIndexFlag f = s.setReg vF (flagByte f) := by
  rw [State.setIndexFlag, h]

section
variable (s : State) (w : Word) (f : Bool)

/-- Under either profile the flag of FX1E writes at most VF. -/
theorem State.setIndexFlag_regsOnly : RegsOnly [vF] s (s.setIndexFlag f) := by
  cases h : s.config.indexOverflow with
  | on =>
    rw [State.setIndexFlag_on f h]
    exact s.setReg_regsOnly vF _
  | off =>
    rw [State.setIndexFlag_off f h]
    exact fun _ _ => rfl

theorem State.setIndexFlag_onlyChanges : OnlyChanges [.regs] s (s.setIndexFlag f) := by
  rw [State.setIndexFlag_eq_setRegs]
  exact s.setRegs_onlyChanges _

theorem State.setIndexFlag_i : (s.setIndexFlag f).i = s.i := s.setIndexFlag_onlyChanges f .index (by decide)

/-- The three writes of FX1E. -/
theorem State.setI_setIndexFlag_advance_frame : ((s.setI w).setIndexFlag f).advance.pc = s.pc + 2 ∧
    RegsOnly [vF] s ((s.setI w).setIndexFlag f).advance ∧
    OnlyChanges [.index, .regs, .pc] s ((s.setI w).setIndexFlag f).advance := by
  have hwrites : OnlyChanges [.index, .regs] s ((s.setI w).setIndexFlag f) :=
    ((s.setI_onlyChanges w).mono (by simp)).trans (((s.setI w).setIndexFlag_onlyChanges f).mono (by simp))
  obtain ⟨hpc, hframe⟩ := hwrites.advance_frame (by decide)
  exact ⟨hpc, (s.setI w).setIndexFlag_regsOnly f, hframe⟩

end

/-! ### Bytes stored at I, registers loaded from I (43_index_memory.md R183 to R186) -/

section
variable (s : State) (x r : Reg)

/-- A store of `n + 1` bytes at I keeps the bytes outside I, …, I + n and all but memory and PC. -/
theorem State.store_advance_frame {bs : List Byte} {n : Nat} (hlen : bs.length = n + 1) :
    (∀ a, a < s.i.toNat ∨ s.i.toNat + n < a →
      (s.setMem (storeBytes s.config s.mem s.base bs)).advance.byte a = s.byte a) ∧
    (s.setMem (storeBytes s.config s.mem s.base bs)).advance.pc = s.pc + 2 ∧
    OnlyChanges [.memory, .pc] s (s.setMem (storeBytes s.config s.mem s.base bs)).advance := by
  refine ⟨fun a ha => ?_, (s.setMem_onlyChanges _).advance_frame (by decide)⟩
  exact storeBytes_read_outside (ha.imp id fun habove => hlen ▸ habove)

/-- A digit of VX, as a number, at its place from I on. -/
theorem effect_ldBVx_digit {k n : Nat} (hk : k < 3) (hdigit : (decimalDigits (s.reg x))[k]'hk = BitVec.ofNat 8 n)
    (hn : n < 256) : ((effect (.ldBVx x) s).byte (s.i.toNat + k)).toNat = n := by
  have hbyte : (effect (.ldBVx x) s).byte (s.i.toNat + k) = (decimalDigits (s.reg x))[k]'hk :=
    storeBytes_read_inside hk
  rw [hbyte, hdigit]
  exact Nat.mod_eq_of_lt hn

/-- The registers after a load from I: up to VX the bytes from I on, above VX as they were. -/
theorem regsFrom_loadBytes_reg :
    (s.setRegs (regsFrom s.v 0 (loadBytes s.config s.mem s.base (x.val + 1)))).reg r =
      if r ≤ x then s.byte (s.i.toNat + r.val) else s.reg r := by
  split
  case isTrue h =>
    have hlen : r.val < (loadBytes s.config s.mem s.base (x.val + 1)).length := by
      rw [loadBytes_length]
      exact Nat.lt_succ_of_le h
    rw [State.setRegs_reg, regsFrom_getElem _ _ _ _ r.isLt, if_pos (Nat.zero_le _), Nat.sub_zero,
      List.getElem?_eq_getElem hlen, loadBytes_getElem]
    rfl
  case isFalse h => exact regsFrom_loadBytes_above (not_le.mp h)

end

end Sys2Proof.Machine
end

section
/-! SUPPORT. The settled statements about the index register and memory transfer (43_index_memory.md). -/

namespace Sys2Proof.Machine

/-! ### The index register (43_index_memory.md R180 to R182) -/

/-- Settles O30: both are one write of I and the advance. -/
theorem indexLoadsWriteI : Obligations.IndexLoadsWriteI :=
  fun s x nnn =>
    ⟨⟨_, exec_ldINnn s nnn, target_toNat nnn, (s.setI_onlyChanges _).advance_frame (by decide)⟩,
      ⟨_, exec_ldFVx s x, glyphAddr_toNat _, (s.setI_onlyChanges _).advance_frame (by decide)⟩⟩

/-- Settles O31: a write of I, then the flag, which writes neither I nor, with the quirk off, any register. -/
theorem indexAddWrapsAt4096 : Obligations.IndexAddWrapsAt4096 := by
  intro s x
  refine ⟨_, exec_addIVx s x, ?sum, fun hoff r => ?off, fun hon => ?on, s.setI_setIndexFlag_advance_frame ..⟩
  case sum => rw [State.advance_i, State.setIndexFlag_i, State.setI_i, index_mod_memSize_toNat]
  case off =>
    rw [State.advance_reg, State.setIndexFlag_off, State.setI_reg]
    exact hoff
  case on =>
    rw [State.advance_reg, State.setIndexFlag_on, State.setReg_reg, if_pos rfl, flagByte_indexOverflow]
    exact hon

/-! ### Stores at I (43_index_memory.md R183, R184) -/

/-- Settles O32: the digits stored at I inside the unprotected space, and the two faults of the check. -/
theorem decimalStoreWritesThreeDigits : Obligations.DecimalStoreWritesThreeDigits := by
  intro s x
  refine ⟨fun hlo hhi => ?store, fun hhi => ?bounds, fun hlo => ?low⟩
  case store =>
    have hf : instrFault (.ldBVx x) s = none := (if_neg (Nat.not_le.mpr hhi)).trans (if_neg (Nat.not_lt.mpr hlo))
    refine ⟨_, exec_of_instrFault_none (by simp) hf, ?hundreds, ?tens, ?ones, s.store_advance_frame rfl⟩
    case hundreds => exact effect_ldBVx_digit (k := 0) s x (by decide) rfl (by omega)
    case tens => exact effect_ldBVx_digit (k := 1) s x (by decide) rfl (by omega)
    case ones => exact effect_ldBVx_digit (k := 2) s x (by decide) rfl (by omega)
  case bounds => exact exec_of_instrFault_some (by simp) (if_pos hhi)
  case low => exact exec_of_instrFault_some (by simp) ((if_neg (by omega)).trans (if_pos hlo))

/-- Settles O33: the registers stored at I inside the unprotected space, and the two faults of the check. -/
theorem registerStoreWritesV0ToVx : Obligations.RegisterStoreWritesV0ToVx := by
  intro s x
  refine ⟨fun hlo hhi => ?store, fun hhi => ?bounds, fun hlo => ?low⟩
  case store =>
    have hf : instrFault (.ldMemVx x) s = none := (if_neg (Nat.not_le.mpr hhi)).trans (if_neg (Nat.not_lt.mpr hlo))
    exact ⟨_, exec_of_instrFault_none (by simp) hf, fun j hj => effect_ldMemVx_byte hj,
      s.store_advance_frame (s.regsUpTo_length x)⟩
  case bounds => exact exec_of_instrFault_some (by simp) (if_pos hhi)
  case low => exact exec_of_instrFault_some (by simp) ((if_neg (by omega)).trans (if_pos hlo))

/-! ### The load from I (43_index_memory.md R185) -/

/-- Settles O34: the registers up to VX loaded inside the space, and the fault of the check. -/
theorem registerLoadReadsV0ToVx : Obligations.RegisterLoadReadsV0ToVx := by
  intro s x
  refine ⟨fun hhi => ?load, fun hhi => ?bounds⟩
  case load =>
    have hf : instrFault (.ldVxMem x) s = none := if_neg (Nat.not_le.mpr hhi)
    exact ⟨_, exec_of_instrFault_none (by simp) hf, fun j => regsFrom_loadBytes_reg s x j,
      (s.setRegs_onlyChanges _).advance_frame (by decide)⟩
  case bounds => exact exec_of_instrFault_some (by simp) (if_pos hhi)

end Sys2Proof.Machine
end

section
/-! SUPPORT. The settled statement about the random-byte instruction (44_random.md), with the frame of its writes. -/

namespace Sys2Proof.Machine

/-! ### Frames -/

theorem State.setDraws_onlyChanges (s : State) (n : Nat) : OnlyChanges [.draws] s (s.setDraws n) := by
  intro part hpart
  cases part
  case draws => simp at hpart
  all_goals simp [Unchanged]

/-- The three writes of CXNN. -/
theorem State.setReg_setDraws_advance_frame (s : State) (x : Reg) (b : Byte) (n : Nat) :
    ((s.setReg x b).setDraws n).advance.pc = s.pc + 2 ∧ RegsOnly [x] s ((s.setReg x b).setDraws n).advance ∧
    OnlyChanges [.regs, .pc, .draws] s ((s.setReg x b).setDraws n).advance := by
  have hwrites : OnlyChanges [.regs, .draws] s ((s.setReg x b).setDraws n) :=
    ((s.setReg_onlyChanges x b).mono (by simp)).trans (((s.setReg x b).setDraws_onlyChanges n).mono (by simp))
  obtain ⟨hpc, hframe⟩ := hwrites.advance_frame (by decide)
  exact ⟨hpc, s.setReg_regsOnly x b, hframe.mono (by simp)⟩

/-! ### The masked byte (44_random.md R190, R191) -/

/-- Settles O36: the byte drawn is the supplied one or the free one, and a bit of it is kept only where NN has a 1. -/
theorem randomMasksOneFreeByte : Obligations.RandomMasksOneFreeByte := by
  intro s x nn
  have hreg : ((s.setReg x (s.nextRandom &&& nn)).setDraws (s.draws + 1)).advance.reg x = s.nextRandom &&& nn :=
    s.setReg_advance_reg_same x _
  refine ⟨_, exec_rndVxNn s x nn, fun b hb => ?supplied, fun hpast => ?free, rfl, fun j hj => ?masked,
    s.setReg_setDraws_advance_frame ..⟩
  case supplied => rw [hreg, State.nextRandom_supplied hb]
  case free => rw [hreg, State.nextRandom_free (List.getElem?_eq_none hpast)]
  case masked => rw [hreg, BitVec.getLsbD_and, hj, Bool.and_false]

end Sys2Proof.Machine
end

section
/-! SUPPORT. DXYN in the terms of its claims (45_display.md R201 to R206): the cells its sprite lights, the check it
passes, and what it leaves in the framebuffer, in VF and elsewhere. -/

namespace Sys2Proof.Machine

/-! ### The lit cells -/

/-- The cells that the 1 bits of the sprite drawn by DXYN land on. -/
def State.litBy (s : State) (x y : Reg) (n : Nibble) : List (Nat × Nat) :=
  litCells s.config.spriteEdge ((s.reg y).toNat % fbHeight) ((s.reg x).toNat % fbWidth) (s.spriteBytes n)

theorem landing_clip_eq_some {y x row col : Nat} :
    landing .clip y x = some (row, col) ↔ (row < 32 ∧ col < 64) ∧ row = y ∧ col = x := by
  simp only [landing, Option.ite_none_right_eq_some, Option.some.injEq, Prod.mk.injEq, fbHeight, fbWidth]
  omega

theorem landing_wrap_eq_some {y x row col : Nat} :
    landing .wrap y x = some (row, col) ↔ (row < 32 ∧ col < 64) ∧ row = y % 32 ∧ col = x % 64 := by
  simp only [landing, Option.some.injEq, Prod.mk.injEq, fbHeight, fbWidth]
  omega

section
variable {s u : State} {x y : Reg} {n : Nibble} {row col : Nat}

theorem State.spriteBytes_length : (s.spriteBytes n).length = n.toNat :=
  loadBytes_length ..

theorem State.spriteBytes_getElem {r : Nat} (hr : r < (s.spriteBytes n).length) :
    (s.spriteBytes n)[r] = s.byte (s.i.toNat + r) :=
  loadBytes_getElem _ _ _ _ _ hr

/-- The drawing's lit cells by bit, the sprite bytes read as the bytes of memory from I on. -/
theorem State.mem_litBy_iff_landing : (row, col) ∈ s.litBy x y n ↔
    ∃ r c : Nat, r < n.toNat ∧ c < 8 ∧ (s.byte (s.i.toNat + r)).getLsbD (7 - c) = true ∧
      landing s.config.spriteEdge ((s.reg y).toNat % 32 + r) ((s.reg x).toNat % 64 + c) = some (row, col) := by
  rw [State.litBy, mem_litCells]
  constructor
  · rintro ⟨r, hr, c, hc, hbit, hland⟩
    exact ⟨r, c, State.spriteBytes_length ▸ hr, hc, State.spriteBytes_getElem hr ▸ hbit, hland⟩
  · rintro ⟨r, c, hr, hc, hbit, hland⟩
    have hr : r < (s.spriteBytes n).length := State.spriteBytes_length.symm ▸ hr
    exact ⟨r, hr, c, hc, (State.spriteBytes_getElem hr).symm ▸ hbit, hland⟩

/-- The lit cells of the drawing are the cells of the grid that the sprite lights (45_display.md R201 to R203). -/
theorem State.mem_litBy : (row, col) ∈ s.litBy x y n ↔ (row < 32 ∧ col < 64) ∧ SpriteLights s x y n row col := by
  rw [State.mem_litBy_iff_landing]
  cases hedge : s.config.spriteEdge with
  | clip =>
    simp only [SpriteLights, hedge, landing_clip_eq_some, and_left_comm (b := row < 32 ∧ col < 64),
      exists_and_left]
  | wrap =>
    simp only [SpriteLights, hedge, landing_wrap_eq_some, and_left_comm (b := row < 32 ∧ col < 64),
      exists_and_left]

/-- The lit cells depend on the operands, the profile and the sprite bytes only. -/
theorem State.litBy_congr (hi : u.i = s.i) (hx : u.reg x = s.reg x) (hy : u.reg y = s.reg y)
    (hconfig : u.config = s.config)
    (hbytes : ∀ r, r < n.toNat → u.byte (s.i.toNat + r) = s.byte (s.i.toNat + r)) : u.litBy x y n = s.litBy x y n := by
  have hsprite : u.spriteBytes n = s.spriteBytes n := by
    refine List.ext_getElem (State.spriteBytes_length.trans State.spriteBytes_length.symm) fun r hr hr' => ?_
    rw [State.spriteBytes_getElem hr, State.spriteBytes_getElem hr', hi]
    exact hbytes r (State.spriteBytes_length ▸ hr)
  rw [State.litBy, State.litBy, hconfig, hx, hy, hsprite]

/-! ### The drawing -/

theorem State.drawn_cell :
    cell (s.drawn x y n).fb row col = (cell s.fb row col ^^ decide ((row, col) ∈ s.litBy x y n)) :=
  (s.drawn_spec x y n).1 row col

theorem State.drawn_coll :
    (s.drawn x y n).coll = true ↔ ∃ row col, (row, col) ∈ s.litBy x y n ∧ cell s.fb row col = true :=
  (s.drawn_spec x y n).2.trans Prod.exists

theorem State.drawn_coll_of_off (h : ∀ row col, (row, col) ∈ s.litBy x y n → cell s.fb row col = false) :
    (s.drawn x y n).coll = false := by
  rw [← Bool.not_eq_true, State.drawn_coll]
  rintro ⟨row, col, hlit, hon⟩
  exact Bool.false_ne_true ((h row col hlit).symm.trans hon)

/-! ### The instruction -/

/-- DXYN with its N bytes inside memory has its effect (45_display.md R204). -/
theorem exec_drwVxVyN_of_fits (h : n.toNat = 0 ∨ s.i.toNat + n.toNat ≤ 4096) :
    exec (.drwVxVyN x y n) s = .next (effect (.drwVxVyN x y n) s) :=
  exec_of_instrFault_none (by simp) ((instrFault_drwVxVyN s x y n).trans (checkRead_eq_none.mpr h))

theorem effect_drwVxVyN_fb : (effect (.drwVxVyN x y n) s).fb = (s.drawn x y n).fb := rfl

theorem effect_drwVxVyN_vF : (effect (.drwVxVyN x y n) s).reg vF = flagByte (s.drawn x y n).coll :=
  State.setReg_advance_reg_same ..

theorem flagByte_eq_one {f : Bool} : flagByte f = 1 ↔ f = true := by
  cases f <;> decide

end

theorem State.setFb_onlyChanges (s : State) (f : Framebuffer) : OnlyChanges [.display] s (s.setFb f) := by
  intro part hpart
  cases part
  case display => simp at hpart
  all_goals simp [Unchanged]

/-- The three writes of DXYN. -/
theorem effect_drwVxVyN_frame (s : State) (x y : Reg) (n : Nibble) :
    (effect (.drwVxVyN x y n) s).pc = s.pc + 2 ∧ RegsOnly [vF] s (effect (.drwVxVyN x y n) s) ∧
    OnlyChanges [.display, .regs, .pc] s (effect (.drwVxVyN x y n) s) := by
  obtain ⟨hpc, hregs, hframe⟩ :=
    (s.setFb (s.drawn x y n).fb).setReg_advance_frame vF (flagByte (s.drawn x y n).coll)
  exact ⟨hpc, hregs, ((s.setFb_onlyChanges _).mono (by simp)).trans (hframe.mono (by simp))⟩

end Sys2Proof.Machine
end

section
/-! SUPPORT. The settled statements about the display (45_display.md). -/

namespace Sys2Proof.Machine

/-- Settles O38: drawing flips its lit cells, which are those the sprite lights, and finds those that were on. -/
theorem drawFlipsTheLitCells : Obligations.DrawFlipsTheLitCells := by
  intro s x y n
  refine ⟨fun hfits => ?draw, fun hn hhi => ?bounds⟩
  case draw =>
    refine ⟨_, exec_drwVxVyN_of_fits hfits, fun row col hrow hcol => ⟨fun hlit => ?flipped, fun hdark => ?kept⟩,
      ?collision, fun hoff => ?clear, effect_drwVxVyN_frame s x y n⟩
    case flipped =>
      have hmem : (row, col) ∈ s.litBy x y n := State.mem_litBy.mpr ⟨⟨hrow, hcol⟩, hlit⟩
      rw [effect_drwVxVyN_fb, State.drawn_cell, decide_eq_true hmem, Bool.xor_true]
    case kept =>
      have hmem : (row, col) ∉ s.litBy x y n := fun h => hdark (State.mem_litBy.mp h).2
      rw [effect_drwVxVyN_fb, State.drawn_cell, decide_eq_false hmem, Bool.xor_false]
    case collision =>
      rintro ⟨row, col, hrow, hcol, hlit, hon⟩
      rw [effect_drwVxVyN_vF, flagByte_eq_one, State.drawn_coll]
      exact ⟨row, col, State.mem_litBy.mpr ⟨⟨hrow, hcol⟩, hlit⟩, hon⟩
    case clear =>
      rw [effect_drwVxVyN_vF, State.drawn_coll_of_off]
      · rfl
      · intro row col hmem
        obtain ⟨⟨hrow, hcol⟩, hlit⟩ := State.mem_litBy.mp hmem
        exact hoff row col hrow hcol hlit
  case bounds =>
    have hf : instrFault (.drwVxVyN x y n) s = some .memoryBoundsFault := if_pos ⟨hn, by omega⟩
    exact exec_of_instrFault_some (by simp) hf

/-- Settles O39: both draws flip the same lit cells; after a first draw on a clear framebuffer those are the cells
that are on, so the second collides exactly if there is one. -/
theorem drawingTwiceRestoresTheFramebuffer : Obligations.DrawingTwiceRestoresTheFramebuffer := by
  intro s t u w x y n hfits hs hfb hi hx hy hconfig hbytes hu
  obtain rfl := Host.Outcome.next.inj ((exec_drwVxVyN_of_fits hfits).symm.trans hs)
  obtain rfl := Host.Outcome.next.inj ((exec_drwVxVyN_of_fits (hi ▸ hfits)).symm.trans hu)
  have hlit : u.litBy x y n = s.litBy x y n := State.litBy_congr hi hx hy hconfig hbytes
  have hcell (row col : Nat) : cell u.fb row col = (cell s.fb row col ^^ decide ((row, col) ∈ s.litBy x y n)) := by
    rw [hfb, effect_drwVxVyN_fb, State.drawn_cell]
  refine ⟨?restored, fun hclear => ⟨?first, ?second⟩⟩
  case restored =>
    refine Framebuffer.ext_cell fun row col => ?_
    rw [effect_drwVxVyN_fb, State.drawn_cell, hlit, hcell, Bool.xor_assoc, Bool.xor_self, Bool.xor_false]
  case first =>
    rw [effect_drwVxVyN_vF, State.drawn_coll_of_off fun row col _ => hclear row col]
    rfl
  case second =>
    rw [effect_drwVxVyN_vF, flagByte_eq_one, State.drawn_coll]
    simp only [hlit, hcell, hclear, Bool.false_xor, decide_eq_true_eq, and_self, State.mem_litBy, and_assoc]

/-- Settles O37: one write of the framebuffer and the advance. -/
theorem clearTurnsEveryCellOff : Obligations.ClearTurnsEveryCellOff :=
  fun s => ⟨_, exec_cls s, cell_blankFb, (s.setFb_onlyChanges blankFb).advance_frame (by decide)⟩

end Sys2Proof.Machine
end

section
/-! SUPPORT. Key-waiting in the terms of its claims (46_keypad.md R220 to R226): the key that a skip reads, the key that
a poll finds, what an arming step and a poll write, and a wait that nothing ends. -/

namespace Sys2Proof.Machine

/-! ### The key of a skip and the key of a poll (46_keypad.md R220, R223, R224) -/

theorem State.eq_lowNibble {s : State} {x k : Reg} (hk : k.val = (s.reg x).toNat % 16) : k = s.lowNibble x :=
  Fin.ext hk

theorem keyByte_toNat (k : Reg) : (keyByte k).toNat = k.val := by
  rw [keyByte, BitVec.toNat_ofNat]
  omega

/-- The keys are searched in ascending order. -/
theorem allKeys_eq_finRange : allKeys = List.finRange 16 := by decide

section
variable {s : State} {k : Reg}

/-- The test that the poll's search makes of a key. -/
theorem State.newlyPressed_iff : (s.keyDown k && !s.latched k) = true ↔ s.NewlyPressed k := by
  rw [Bool.and_eq_true, Bool.not_eq_true']
  rfl

theorem State.newKey_eq_none_iff : s.newKey = none ↔ ∀ k, ¬ s.NewlyPressed k := by
  simp only [State.newKey, allKeys_eq_finRange, List.find?_eq_none, List.mem_finRange, forall_const,
    State.newlyPressed_iff]

/-- The search stops at key `k` when `k` is new and no key before it is. -/
theorem State.newKey_of_least (hk : s.NewlyPressed k) (hleast : ∀ j, s.NewlyPressed j → k ≤ j) :
    s.newKey = some k := by
  rw [State.newKey, allKeys_eq_finRange, List.find?_eq_some_iff_getElem]
  refine ⟨State.newlyPressed_iff.mpr hk, k.val, by simp, by simp, fun j hj => ?before⟩
  case before =>
    rw [Bool.not_eq_true', ← Bool.not_eq_true, State.newlyPressed_iff]
    intro hnew
    have hle : k.val ≤ j := by simpa [Fin.le_def] using hleast _ hnew
    exact absurd hj (Nat.not_lt.mpr hle)

end

/-! ### Frames (46_keypad.md R222, R223) -/

section
variable (s : State)

theorem State.setWait_onlyChanges (w : Wait) : OnlyChanges [.waiting] s (s.setWait w) := by
  intro part hpart
  cases part
  case waiting => simp at hpart
  all_goals simp [Unchanged]

theorem State.setKlatch_onlyChanges (k : BitVec 16) : OnlyChanges [.keyLatch] s (s.setKlatch k) := by
  intro part hpart
  cases part
  case keyLatch => simp at hpart
  all_goals simp [Unchanged]

/-- The two writes of the arming step, with which the completion of a wait goes on after VX. -/
theorem State.setWait_setKlatch_onlyChanges (w : Wait) (k : BitVec 16) :
    OnlyChanges [.waiting, .keyLatch] s ((s.setWait w).setKlatch k) :=
  ((s.setWait_onlyChanges w).mono (by simp)).trans (((s.setWait w).setKlatch_onlyChanges k).mono (by simp))

/-- The writes that complete a wait, before the advance. -/
theorem State.complete_onlyChanges (x : Reg) (b : Byte) (w : Wait) (k : BitVec 16) :
    OnlyChanges [.regs, .waiting, .keyLatch] s (((s.setReg x b).setWait w).setKlatch k) :=
  ((s.setReg_onlyChanges x b).mono (by simp)).trans
    (((s.setReg x b).setWait_setKlatch_onlyChanges w k).mono (by simp))

end

/-! ### A wait that nothing ends (46_keypad.md R226) -/

theorem OnlyChanges.refl (ps : List Part) (s : State) : OnlyChanges ps s s := by
  intro part _
  cases part <;> simp [Unchanged]

theorem run_succ_of_step (M : Host.Core) {s t : M.State} (h : M.step s = .next t) (n : Nat) :
    M.run (n + 1) s = M.run n t := by
  rw [Host.Core.run, h]

/-- The induction over the steps of a run: what every step answers with and keeps, any number of steps does. -/
theorem run_keeps {P : State → Prop} (hstep : ∀ s, P s → ∃ t, step s = .next t ∧ P t) (n : Nat) {s : State}
    (hs : P s) : ∃ t, core.run n s = .next t ∧ P t := by
  induction n generalizing s with
  | zero => exact ⟨s, rfl, hs⟩
  | succ n ih =>
    obtain ⟨u, hu, hPu⟩ := hstep s hs
    obtain ⟨t, ht, hPt⟩ := ih hPu
    exact ⟨t, (run_succ_of_step core hu n).trans ht, hPt⟩

/-- The core waits for VX, no event is to come and no key is newly pressed. -/
structure State.IdleWait (x : Reg) (s : State) : Prop where
  noFault : s.fault = none
  waiting : s.wait = .awaitingKey x
  noEvents : s.inputs = []
  noNewKey : ∀ k, ¬ s.NewlyPressed k

section
variable {s : State} {x : Reg}

/-- A poll that finds no key only samples the keys. -/
theorem coreStep_of_noNewKey (hf : s.fault = none) (hw : s.wait = .awaitingKey x)
    (hnew : ∀ k, ¬ s.NewlyPressed k) : coreStep s = .next (s.setKlatch s.key) := by
  rw [coreStep_waiting hf hw, keyWaitPoll_none x (State.newKey_eq_none_iff.mpr hnew)]

/-- Right after a sample no key is new. -/
theorem State.setKlatch_key_noNewKey (k : Reg) : ¬ (s.setKlatch s.key).NewlyPressed k := by
  rintro ⟨hdown, hup⟩
  rw [State.setKlatch_key_latched] at hup
  exact Bool.false_ne_true (hup.symm.trans hdown)

theorem State.IdleWait.step (h : s.IdleWait x) :
    Machine.step s = .next (s.setKlatch s.key) ∧ (s.setKlatch s.key).IdleWait x := by
  obtain ⟨hf, hw, hin, hnew⟩ := h
  have hstep : Machine.step s = coreStep s := by rw [Machine.step, hin]
  exact ⟨hstep.trans (coreStep_of_noNewKey hf hw hnew), hf, hw, hin, s.setKlatch_key_noNewKey⟩

end

end Sys2Proof.Machine
end

section
/-! SUPPORT. The settled statements about the keypad (46_keypad.md). -/

namespace Sys2Proof.Machine

/-- Settles O24: each of the two is one skip, on the key of VX's low nibble or on its complement. -/
theorem keySkipsReadTheInputMap : Obligations.KeySkipsReadTheInputMap := by
  intro s x k hk
  obtain rfl : k = s.lowNibble x := State.eq_lowNibble hk
  refine ⟨⟨_, exec_skpVx s x, skipIf_pc .., skipIf_onlyChanges _ _⟩,
    ⟨_, exec_sknpVx s x, ?unpressed, skipIf_onlyChanges _ _⟩⟩
  case unpressed => cases hdown : s.keyDown (s.lowNibble x) <;> simp [skipIf_pc]

/-- Settles O41: the arming step is the write of WAIT and the sample. -/
theorem keyWaitArms : Obligations.KeyWaitArms :=
  fun s x => ⟨_, exec_ldVxK s x, rfl, State.setKlatch_key_latched _, rfl, s.setWait_setKlatch_onlyChanges _ _⟩

/-- Settles O42: the poll searches the keys in ascending order, so it finds the least new key, or none. -/
theorem keyWaitPollCompletesWithTheLeastNewKey : Obligations.KeyWaitPollCompletesWithTheLeastNewKey := by
  intro s x hf hw
  refine ⟨fun hnew => ?sample, fun k hk hleast => ?complete⟩
  case sample =>
    exact ⟨_, coreStep_of_noNewKey hf hw hnew, s.setKlatch_key_latched, s.setKlatch_onlyChanges _⟩
  case complete =>
    have hstep := coreStep_waiting hf hw
    rw [keyWaitPoll_some x (State.newKey_of_least hk hleast)] at hstep
    obtain ⟨hpc, hframe⟩ := (s.complete_onlyChanges x (keyByte k) .none s.key).advance_frame (by decide)
    have hvx : (((s.setReg x (keyByte k)).setWait .none).setKlatch s.key).advance.reg x = keyByte k :=
      s.setReg_advance_reg_same x (keyByte k)
    exact ⟨_, hstep, by rw [hvx, keyByte_toNat], rfl, s.setKlatch_key_latched, hpc,
      s.setReg_regsOnly x (keyByte k), hframe⟩

/-- Settles O43: every step of an idle wait is a poll that leaves it an idle wait. -/
theorem keyWaitLastsUntilAKeyIsPressed : Obligations.KeyWaitLastsUntilAKeyIsPressed := by
  intro s x n hf hw hin hnew
  have hkeeps : ∀ u : State, u.IdleWait x ∧ OnlyChanges [.keyLatch] s u →
      ∃ t, step u = .next t ∧ t.IdleWait x ∧ OnlyChanges [.keyLatch] s t := by
    rintro u ⟨hidle, hframe⟩
    obtain ⟨hstep, hidle'⟩ := hidle.step
    exact ⟨_, hstep, hidle', hframe.trans (u.setKlatch_onlyChanges _)⟩
  have hstart : s.IdleWait x ∧ OnlyChanges [.keyLatch] s s := ⟨⟨hf, hw, hin, hnew⟩, .refl _ s⟩
  obtain ⟨t, hrun, hidle, hframe⟩ := run_keeps hkeeps n hstart
  exact ⟨t, hrun, hidle.waiting, hframe⟩

end Sys2Proof.Machine
end

section
/-! SUPPORT. The settled statements about the timers (47_timers.md), with the frames of their writes and the step that
performs a tick. -/

namespace Sys2Proof.Machine

/-! ### Frames -/

section
variable (s : State)

theorem State.setDt_onlyChanges (b : Byte) : OnlyChanges [.delay] s (s.setDt b) := by
  intro part hpart
  cases part
  case delay => simp at hpart
  all_goals simp [Unchanged]

theorem State.setSt_onlyChanges (b : Byte) : OnlyChanges [.sound] s (s.setSt b) := by
  intro part hpart
  cases part
  case sound => simp at hpart
  all_goals simp [Unchanged]

theorem State.setInputs_onlyChanges (es : List Event) : OnlyChanges [.inputs] s (s.setInputs es) := by
  intro part hpart
  cases part
  case inputs => simp at hpart
  all_goals simp [Unchanged]

/-- The two writes of a tick. -/
theorem tick_onlyChanges : OnlyChanges [.delay, .sound] s (tick s) :=
  ((s.setDt_onlyChanges _).mono (by simp)).trans (((s.setDt _).setSt_onlyChanges _).mono (by simp))

end

/-! ### Ticks (47_timers.md R233, R234) -/

/-- The tick acts on the state whose schedule no longer holds it. -/
theorem step_of_tick {s : State} {rest : List Event} (h : s.inputs = .tick :: rest) :
    step s = .next (tick (s.setInputs rest)) := by
  simp only [step, h, perform]

/-- Settles O46: the step is the tick of the state without the event, and a tick is two counts down. -/
theorem tickCountsBothTimersDown : Obligations.TickCountsBothTimersDown := by
  intro s rest hin
  have hframe : OnlyChanges [.delay, .sound, .inputs] s (tick (s.setInputs rest)) :=
    ((s.setInputs_onlyChanges rest).mono (by simp)).trans ((tick_onlyChanges (s.setInputs rest)).mono (by simp))
  exact ⟨_, step_of_tick hin, countDown_toNat s.dt, countDown_toNat s.st, rfl, hframe⟩

/-- Settles O47, by induction on the number of ticks: the first tick is O46, and the frames compose. -/
theorem manyTicksStopAtZero : Obligations.ManyTicksStopAtZero := by
  intro n
  induction n with
  | zero => exact fun s rest hin => ⟨s, rfl, rfl, rfl, hin, .refl _ s⟩
  | succ n ih =>
    intro s rest hin
    obtain ⟨u, hu, hdtu, hstu, hinu, hframeu⟩ := tickCountsBothTimersDown s _ hin
    obtain ⟨t, ht, hdt, hst, hint, hframe⟩ := ih u rest hinu
    exact ⟨t, (run_succ_of_step core hu n).trans ht, by omega, by omega, hint, hframeu.trans hframe⟩

/-! ### Moves between VX and a timer (47_timers.md R230 to R232) -/

theorem State.sound_iff (s : State) : s.sound = true ↔ s.st ≠ 0 := bne_iff_ne

/-- Settles O45: each of the three is one write and the advance, and SOUND reads the ST that FX18 wrote. -/
theorem timerInstructionsMoveOneByte : Obligations.TimerInstructionsMoveOneByte := by
  intro s x
  exact ⟨⟨_, exec_ldVxDt s x, s.setReg_advance_reg_same x s.dt, s.setReg_advance_frame x s.dt⟩,
    ⟨_, exec_ldDtVx s x, rfl, (s.setDt_onlyChanges _).advance_frame (by decide)⟩,
    ⟨_, exec_ldStVx s x, rfl, State.sound_iff _, (s.setSt_onlyChanges _).advance_frame (by decide)⟩⟩

end Sys2Proof.Machine
end

section
/-! SUPPORT. Which fault the step of a running core raises and what the faulting step leaves (60_exceptions.md R245 to
R248), and the one stop of the machine (log 9), said once for every state. -/

namespace Sys2Proof.Machine

/-! ### The step that faults -/

/-- The word a fault record of a step carries: the fetched word, or 0x0000 when the fetch fails (60_exceptions.md R245). -/
def State.fetchedWord (s : State) : Word := if s.pc.toNat + 1 < memSize then s.wordAtPc else 0

section
variable {s : State}

theorem State.fetchedWord_of_fetchable (hp : s.Fetchable) : s.fetchedWord = s.wordAtPc := if_pos hp

theorem State.fetchedWord_of_not_fetchable (hp : ¬ s.Fetchable) : s.fetchedWord = 0 := if_neg hp

theorem State.not_fetchable_iff : ¬ s.Fetchable ↔ 0xFFF ≤ s.pc.toNat := by
  simp only [State.Fetchable, memSize]
  omega

theorem stepFault_of_not_fetchable (hp : ¬ s.Fetchable) : stepFault s = some .memoryBoundsFault :=
  if_pos (State.not_fetchable_iff.mp hp)

theorem stepFault_of_undecoded {e : DecodeError} (hp : s.Fetchable) (hd : decodeWord s.wordAtPc = .error e) :
    stepFault s = some .unknownOpcodeError := by
  rw [stepFault, if_neg (fun h => State.not_fetchable_iff.mpr h hp), hd]

theorem stepFault_of_decoded {i : Instr} (hp : s.Fetchable) (hd : decodeWord s.wordAtPc = .ok i) :
    stepFault s = instrFault i s := by
  rw [stepFault, if_neg (fun h => State.not_fetchable_iff.mpr h hp), hd]

theorem coreStep_of_undecoded {e : DecodeError} (hrun : s.Running) (hp : s.Fetchable)
    (hd : decodeWord s.wordAtPc = .error e) : coreStep s = .next (raise .unknownOpcodeError s.wordAtPc s) := by
  refine (coreStep_running hrun).trans ((if_pos hp).trans ?_)
  rw [executeWord, hd]

/-- What a next state of a running core can be: the start with the fault of `stepFault` latched, or, where that names
none, a state without a fault. -/
theorem coreStep_running_cases {t : State} (hrun : s.Running) (h : coreStep s = .next t) :
    (∃ k, stepFault s = some k ∧ t = raise k s.fetchedWord s) ∨ (stepFault s = none ∧ t.fault = none) := by
  by_cases hp : s.Fetchable
  case neg =>
    rw [coreStep_of_not_fetchable hrun hp] at h
    cases h
    exact .inl ⟨_, stepFault_of_not_fetchable hp, by rw [State.fetchedWord_of_not_fetchable hp]⟩
  case pos =>
    rw [State.fetchedWord_of_fetchable hp]
    cases hd : decodeWord s.wordAtPc with
    | error e =>
      rw [coreStep_of_undecoded hrun hp hd] at h
      cases h
      exact .inl ⟨_, stepFault_of_undecoded hp hd, rfl⟩
    | ok i =>
      rw [coreStep_of_decoded hrun hp hd] at h
      rw [stepFault_of_decoded hp hd, ← encodeOfDecodedWordIsTheWord _ i hd]
      rcases exec_next_cases h with hfault | ⟨hnone, rfl⟩
      · exact .inl hfault
      · exact .inr ⟨hnone, (effect_fault i s).trans hrun.1⟩

end

/-! ### The one stop of the machine (log 9) -/

/-- An instruction answers a next state, or is a 00EE or 2NNN with SP > 16, which stops. -/
theorem exec_next_or_stop (i : Instr) (s : State) : (∃ t, exec i s = .next t) ∨
    (exec i s = .fault .stackPointerBeyondStack ∧ 16 < s.sp.toNat ∧ (i = .ret ∨ ∃ nnn, i = .callNnn nnn)) := by
  by_cases h : s.sp.toNat ≤ 16 ∨ ¬ (i = .ret ∨ ∃ nnn, i = .callNnn nnn)
  case pos =>
    rw [exec_eq_guarded h]
    rcases guarded_cases (instrFault i s) (encode i) s (effect i s) with ⟨-, hnext⟩ | ⟨k, -, hnext⟩
    all_goals exact .inl ⟨_, hnext⟩
  case neg =>
    obtain ⟨hsp, hi⟩ := not_or.mp h
    have hi := not_not.mp hi
    have hsp := Nat.not_le.mp hsp
    exact .inr ⟨exec_stops_beyond_stack hi hsp, hsp, hi⟩

/-- The step `o` from `s` is the stop of log 9: SP > 16, and a 00EE or 2NNN at PC. -/
def StopsBeyondStack (s : State) (o : Host.Outcome State Fault Refusal) : Prop :=
  o = .fault .stackPointerBeyondStack ∧ 16 < s.sp.toNat ∧
    (decodeWord s.wordAtPc = .ok .ret ∨ ∃ nnn, decodeWord s.wordAtPc = .ok (.callNnn nnn))

theorem coreStep_next_or_stop (s : State) : (∃ t, coreStep s = .next t) ∨ StopsBeyondStack s (coreStep s) := by
  rcases coreStep_cases s with ⟨r, -, hc⟩ | ⟨x, -, -, hc⟩ | ⟨-, -, hc⟩ | ⟨-, -, -, hc⟩ | ⟨i, -, -, hd, hc⟩
  case inr.inr.inr.inr =>
    rw [StopsBeyondStack, hc, hd]
    simpa only [Except.ok.injEq] using exec_next_or_stop i s
  all_goals exact .inl ⟨_, hc⟩

/-- The events other than the core's step never stop, and taking an event leaves SP and the word at PC. -/
theorem step_next_or_stop (s : State) : (∃ t, step s = .next t) ∨ StopsBeyondStack s (step s) := by
  rcases step_cases s with ⟨-, hs⟩ | ⟨-, hs⟩ | ⟨k, p, -, hs⟩
  · rw [hs]
    exact coreStep_next_or_stop s.eventTaken
  · exact .inl ⟨_, hs⟩
  · exact .inl ⟨_, hs⟩

end Sys2Proof.Machine
end

section
/-! SUPPORT. The settled statements about faults (60_exceptions.md), and about the self-jump at which a run ends
(70_reset_and_hazards.md R295). -/

namespace Sys2Proof.Machine

/-- Settles O12: with no event to come a machine step is the core's, which leaves a halted core as it is, so the run
keeps being at `s`. -/
theorem haltedCoreNeverResumes : Obligations.HaltedCoreNeverResumes := by
  intro s r n hf hin
  have hstep : step s = .next s := by rw [step, hin, coreStep_halted hf]
  have hstays : ∀ u, u = s → ∃ t, step u = .next t ∧ t = s := by
    rintro u rfl
    exact ⟨u, hstep, rfl⟩
  obtain ⟨t, hrun, rfl⟩ := run_keeps hstays n rfl
  exact hrun

/-- Settles O14: the decoder rejects an unknown word (O4), so the step takes the fault with it. -/
theorem unknownOpcodeFaultsWithTheWord : Obligations.UnknownOpcodeFaultsWithTheWord := by
  intro s hrun hp hword
  have hd := (unknownWordsAreRejectedByName s.wordAtPc).1 hword
  exact ⟨_, coreStep_of_undecoded hrun hp hd, raise_fault .., raise_onlyChanges _ _ _⟩

/-- Settles O15: the only next state with a record is the start with that record latched. -/
theorem faultsArePrecise : Obligations.FaultsArePrecise := by
  intro s t r hrun h hr
  rcases coreStep_running_cases hrun h with ⟨k, -, rfl⟩ | ⟨-, hnone⟩
  · cases hr
    exact ⟨rfl, rfl, rfl, State.fetchedWord_of_fetchable, State.fetchedWord_of_not_fetchable, rfl⟩
  · cases hnone.symm.trans hr

/-- Settles O16: with SP ≤ 16 the step does not stop, and the latch of the next state is `stepFault`'s. -/
theorem eachFaultIsRaisedExactlyWhenItsConditionHolds :
    Obligations.EachFaultIsRaisedExactlyWhenItsConditionHolds := by
  intro s hrun hsp
  rcases coreStep_next_or_stop s with ⟨t, h⟩ | ⟨-, hbeyond, -⟩
  · refine ⟨t, h, ?_⟩
    rcases coreStep_running_cases hrun h with ⟨k, hk, rfl⟩ | ⟨hk, hnone⟩
    · rw [hk, raise_fault, Option.map_some]
    · rw [hk, hnone, Option.map_none]
  · exact absurd hsp (Nat.not_le.mpr hbeyond)

/-- Settles O55: the one stop needs SP > 16, which the invariant excludes. -/
theorem stepAlwaysAnswersANextState : Obligations.StepAlwaysAnswersANextState := by
  refine ⟨fun s hinv => (step_next_or_stop s).resolve_right ?_, fun s hstuck => (step_next_or_stop s).resolve_left ?_⟩
  · rintro ⟨-, hbeyond, -⟩
    exact absurd hinv.spRange (Nat.not_le.mpr hbeyond)
  · rintro ⟨t, h⟩
    exact hstuck t h

/-- Settles O22: the jump writes to PC the address it already holds. -/
theorem selfJumpIsAFixedPoint : Obligations.SelfJumpIsAFixedPoint := by
  rintro s ⟨hrun, hp, nnn, hd, hpc⟩
  rw [coreStep_of_decoded hrun hp hd, exec_jpNnn, ← hpc]
  rfl

end Sys2Proof.Machine
end

section
/-! SUPPORT. A canonical memory is determined by what it reads (log 8), and so a store of bytes that are already there
changes nothing; the invariant of a constructed and of a loaded machine. -/

namespace Sys2Proof.Machine

/-! ### The canonical form and the bytes read -/

section
variable {c : Config} {m k : Memory}

/-- A canonical memory lists exactly the cells of the space that read otherwise than after reset. -/
theorem Memory.wf.mem_iff (h : m.wf c) (p : Host.Cell) :
    p ∈ m ↔ p.1 < memSize ∧ p.2 ≠ resetByte c p.1 ∧ m.read c p.1 = p.2 := by
  obtain ⟨hrising, hlisted⟩ := h
  constructor
  · intro hp
    obtain ⟨hin, hne⟩ := hlisted p hp
    exact ⟨hin, hne, by rw [Memory.read, Memory.find_of_mem hrising hp, Option.getD_some]⟩
  · rintro ⟨-, hne, hread⟩
    rw [Memory.read] at hread
    cases hfind : m.find p.1 with
    | none => exact absurd (by rw [← hread, hfind, Option.getD_none]) hne
    | some v =>
      rw [hfind, Option.getD_some] at hread
      exact Memory.mem_of_find (hread ▸ hfind)

/-- Two canonical memories that read the same list the same cells, in the one rising order. -/
theorem Memory.wf.eq_of_read (hm : m.wf c) (hk : k.wf c) (hread : ∀ a, a < memSize → m.read c a = k.read c a) :
    m = k := by
  have hmem : ∀ p, p ∈ m ↔ p ∈ k := by
    intro p
    rw [hm.mem_iff, hk.mem_iff]
    exact and_congr_right fun hin => by rw [hread p.1 hin]
  exact List.Pairwise.eq_of_mem_iff (r := InvImage (· < ·) Prod.fst) hm.1 hk.1 hmem

/-- Storing the bytes that are there changes nothing. -/
theorem storeBytes_of_read {a : Nat} {bs : List Byte} (h : m.wf c) (ha : a + bs.length ≤ memSize)
    (hbs : ∀ (j : Nat) (hj : j < bs.length), m.read c (a + j) = bs[j]) : storeBytes c m a bs = m := by
  refine (storeBytes_wf h ha).eq_of_read h fun b _ => ?_
  by_cases hb : b < a ∨ a + bs.length ≤ b
  · exact storeBytes_read_outside hb
  · obtain ⟨j, rfl⟩ := Nat.exists_eq_add_of_le (show a ≤ b by omega)
    have hj : j < bs.length := by omega
    rw [storeBytes_read_inside hj, hbs j hj]

end

/-! ### The invariant before the first step -/

/-- A canonical memory with its low part untouched may replace that of a core that is not waiting. -/
theorem State.Inv.setMem {s : State} {m : Memory} (h : s.Inv) (hw : s.wait = .none) (hm : m.wf s.config)
    (hlow : ∀ p ∈ m, progBase ≤ p.1) : (s.setMem m).Inv where
  memCanonical := hm
  lowMemory := hlow
  indexRange := h.indexRange
  spRange := h.spRange
  pcRange := h.pcRange
  slotRange := h.slotRange
  waitingAtKeyWait := by
    intro x hx
    cases hw.symm.trans hx
  haltedRecord := h.haltedRecord

theorem State.construct_inv (c : Config) : (State.construct c).Inv where
  memCanonical := ⟨.nil, by simp [State.construct]⟩
  lowMemory := by simp [State.construct]
  indexRange := Nat.zero_le _
  spRange := Nat.zero_le _
  pcRange := by
    show (0x200 : Word).toNat ≤ 0x10FE
    decide
  slotRange := by
    intro k
    have hzero : (State.construct c).slot k = 0 := Vector.getElem_replicate k.isLt
    rw [hzero]
    decide
  waitingAtKeyWait := nofun
  haltedRecord := nofun

theorem imageOk_iff (image : List Byte) : imageOk image = true ↔ 1 ≤ image.length ∧ image.length ≤ maxProg := by
  simp [imageOk]

theorem Launched.inv {c : Config} {image : List Byte} {s : State} (h : Launched c image s) : s.Inv := by
  obtain ⟨hok, hs⟩ := h
  obtain ⟨-, hlen⟩ := (imageOk_iff image).mp hok
  have hstart := State.construct_inv c
  have hfits : progBase + image.length ≤ memSize := by
    simp only [progBase, memSize, maxProg] at hlen ⊢
    omega
  have hlow : ∀ p ∈ storeBytes c [] progBase image, progBase ≤ p.1 :=
    fun p hp => (storeBytes_mem hp).resolve_right List.not_mem_nil
  have hloaded := hstart.setMem rfl (storeBytes_wf hstart.memCanonical hfits) hlow
  rw [hs]
  exact hloaded.frame ..

/-! ### The low bytes and the font -/

/-- Below 0x200 a machine with the invariant reads as after reset. -/
theorem State.Inv.byte_low {s : State} (h : s.Inv) {a : Nat} (ha : a < progBase) :
    s.byte a = resetByte s.config a := by
  rw [State.byte, Memory.read]
  cases hfind : s.mem.find a with
  | none => rw [Option.getD_none]
  | some v => exact absurd (h.lowMemory _ (Memory.mem_of_find hfind)) (Nat.not_le.mpr ha)

/-- `load_font` writes the font bytes, which stand below 0x200 as they did after reset. -/
theorem loadFont_of_inv {s : State} (h : s.Inv) : loadFont s = s := by
  have hfont : storeBytes s.config s.mem fontBase s.config.font.toList = s.mem := by
    refine storeBytes_of_read h.memCanonical (by simp [fontBase, fontBytes, memSize]) fun j hj => ?_
    have hj : j < 80 := by simpa using hj
    have hlow : fontBase + j < progBase := by
      simp only [fontBase, progBase]
      omega
    rw [Vector.getElem_toList, ← resetByte_font s.config j hj]
    exact h.byte_low hlow
  rw [loadFont, hfont]
  rfl

end Sys2Proof.Machine
end

section
/-! SUPPORT. The settled statements about the canonical memory, reset and the loader (70_reset_and_hazards.md). -/

namespace Sys2Proof.Machine

/-- Settles O8: the bytes say which cells are listed, and their addresses in what order. -/
theorem canonicalMemoryIsDeterminedByItsBytes : Obligations.CanonicalMemoryIsDeterminedByItsBytes :=
  fun _ _ _ hm hk hread => hm.eq_of_read hk hread

/-- Settles O56: construction field by field, and the load of an image that fits above 0x200. -/
theorem everyLaunchStateHasTheInvariant : Obligations.EveryLaunchStateHasTheInvariant :=
  ⟨State.construct_inv, fun _ _ _ h => h.inv⟩

/-- Settles O58: the word at 0x200 reads 0x0000, which is no instruction. -/
theorem emptyMachineFaultsAtOnce : Obligations.EmptyMachineFaultsAtOnce := by
  have hbyte : ∀ a, 0x09F < a → State.reset.byte a = 0 :=
    fun a ha => (Memory.read_nil _ a).trans (resetByte_of_not_font _ (.inr ha))
  have hword : State.reset.wordAtPc = 0 := by
    rw [State.wordAtPc, hbyte _ (by decide), hbyte _ (by decide)]
    rfl
  have hp : State.reset.Fetchable := by
    unfold State.Fetchable
    decide
  have hd : decodeWord State.reset.wordAtPc = unknown 0 := by rw [hword]; rfl
  have hstep := coreStep_of_undecoded ⟨rfl, rfl⟩ hp hd
  rw [hword] at hstep
  exact hstep

/-- Settles O59: the two rejections, and the copy of an image that fits. -/
theorem loadProgramCopiesTheImageOrRejectsIt : Obligations.LoadProgramCopiesTheImageOrRejectsIt := by
  intro image s
  refine ⟨fun hempty => if_pos hempty, fun hlarge => ?large, fun hlo hhi => ?copied⟩
  case large => rw [loadProgram, if_neg (by omega), if_pos hlarge]
  case copied =>
    have hok : loadProgram image s = .ok (s.setMem (storeBytes s.config s.mem progBase image)) := by
      rw [loadProgram, if_neg (by omega), if_neg (Nat.not_lt.mpr hhi)]
    exact ⟨_, hok, fun _ hj => storeBytes_read_inside hj, fun _ ha => storeBytes_read_outside ha,
      s.setMem_onlyChanges _⟩

/-- Settles O60: constructed and launch states have the invariant (O56), under which the font stands in memory. -/
theorem loadFontChangesNothing : Obligations.LoadFontChangesNothing := by
  rintro c image s (rfl | hlaunched)
  · exact loadFont_of_inv (State.construct_inv c)
  · exact loadFont_of_inv hlaunched.inv

end Sys2Proof.Machine
end
